-- ==== Sys2Proof/Word.lean ====
section
/-! DEFINITION. The byte, and the plainest arithmetic of the manual's whole numbers (introduction, sections 4.3 and 4.4):
clamping to the nearer limit and counts that saturate. -/

namespace Sys2Proof

/-- One byte on a station port or in the flash. -/
abbrev Byte := BitVec 8

/-- A natural number clamped to the nearer limit of a range (section 4.4). -/
def clampNat (lo hi n : Nat) : Nat := min hi (max lo n)

/-- A whole number clamped to the nearer limit of a range (section 4.4). -/
def clampInt (lo hi n : Int) : Int := min hi (max lo n)

/-- One more, stopping at the limit (section 4.3, "saturate"). -/
def satInc (limit n : Nat) : Nat := min limit (n + 1)

end Sys2Proof
end

