-- ==== Sys2Proof/Machine/Bytes.lean ====
section
/-! DEFINITION. Numbers and bytes: the layouts of R190 (least significant byte first, presence bytes, lists), the CRC-8 of
the station ports (R180) and the CRC-16 of the flash slots (R162). -/

namespace Sys2Proof.Machine

/-! ## Numbers to bytes (R190) -/

/-- One byte. -/
def u8 (n : Nat) : List Byte := [BitVec.ofNat 8 n]

/-- Two bytes, least significant first. -/
def u16 (n : Nat) : List Byte := [BitVec.ofNat 8 n, BitVec.ofNat 8 (n / 256)]

/-- Four bytes, least significant first. -/
def u32 (n : Nat) : List Byte :=
  [BitVec.ofNat 8 n, BitVec.ofNat 8 (n / 256), BitVec.ofNat 8 (n / 65536), BitVec.ofNat 8 (n / 16777216)]

/-- One signed byte. -/
def s8 (i : Int) : List Byte := u8 (i % 256).toNat

/-- Two signed bytes. -/
def s16 (i : Int) : List Byte := u16 (i % 65536).toNat

/-- Four signed bytes. -/
def s32 (i : Int) : List Byte := u32 (i % 4294967296).toNat

/-- A flag: one byte, 0 or 1. -/
def flag (b : Bool) : List Byte := u8 (if b then 1 else 0)

/-- `n` bytes of 0x00. -/
def zeros (n : Nat) : List Byte := List.replicate n 0#8

/-- A field of `width` bytes that may be absent: a presence byte, then the field or 0x00 bytes (R190). -/
def optional (width : Nat) (field : Option (List Byte)) : List Byte :=
  match field with
  | some bytes => flag true ++ bytes
  | none => flag false ++ zeros width

/-- A list of varying length: a count byte, then its entries (R190). -/
def counted (entries : List (List Byte)) : List Byte := u8 entries.length ++ entries.flatten

/-- A set as a number with bit `bit x` for each member `x` (R190). -/
def maskOf {α : Type} (bit : α → Nat) (members : List α) : Nat :=
  members.foldl (fun m x => m ||| (1 <<< bit x)) 0

/-! ## Bytes to numbers -/

/-- The number that bytes spell, least significant first. -/
def number : List Byte → Nat
  | [] => 0
  | b :: bs => b.toNat + 256 * number bs

/-- The unsigned field of `width` bytes at `offset`. -/
def field (bytes : List Byte) (offset width : Nat) : Nat := number ((bytes.drop offset).take width)

/-- The signed field of `width` bytes at `offset`. -/
def signedField (bytes : List Byte) (offset width : Nat) : Int :=
  let n := field bytes offset width
  if 2 * n < 256 ^ width then n else (n : Int) - 256 ^ width

/-! ## Check words -/

/-- One bit of the CRC-8 of R180: polynomial x^8+x^2+x+1, no reflection. -/
def crc8Bit (c : BitVec 8) : BitVec 8 := if c.msb then (c <<< 1) ^^^ 0x07#8 else c <<< 1

/-- One byte of the CRC-8. -/
def crc8Byte (c : BitVec 8) (b : Byte) : BitVec 8 := Nat.repeat crc8Bit 8 (c ^^^ b)

/-- The CRC-8 of R180: initial value 0, no final inversion. -/
def crc8 (bytes : List Byte) : BitVec 8 := bytes.foldl crc8Byte 0#8

/-- One bit of the CRC-16 of R162: polynomial x^16+x^12+x^5+1, most significant bit first. -/
def crc16Bit (c : BitVec 16) : BitVec 16 := if c.msb then (c <<< 1) ^^^ 0x1021#16 else c <<< 1

/-- One byte of the CRC-16, most significant bit first. -/
def crc16Byte (c : BitVec 16) (b : Byte) : BitVec 16 :=
  Nat.repeat crc16Bit 8 (c ^^^ BitVec.shiftLeft (b.setWidth 16) 8)

/-- The CRC-16 of R162: initial value 0xFFFF, no reflection, no final inversion. -/
def crc16 (bytes : List Byte) : BitVec 16 := bytes.foldl crc16Byte 0xFFFF#16

/-- A check word's two bytes, low byte first (R191). -/
def crcBytes (bytes : List Byte) : List Byte := u16 (crc16 bytes).toNat

end Sys2Proof.Machine
end

