-- ==== Sys2Proof/Config.lean ====
section
/-! DEFINITION. What the manual fixes once for the part, what the model chose for `State.reset` where the manual gives
nothing, and the free values: constants without a body, of which nothing can be proved. -/

namespace Sys2Proof.Config

/-! ## Intervals, in milliseconds -/

/-- Debounce interval (R24). -/
def debounceMs : Nat := 20
/-- Qualification timer (R25). -/
def qualifyMs : Nat := 500
/-- Tare timer, 3 s (R114). -/
def tareMs : Nat := 3000
/-- Sample periods of one second (R33). -/
def secondPeriods : Nat := 4
/-- The most bytes a station clocks before a response begins (R180). -/
def responseWithin : Nat := 64
/-- Program limit of one flash step (R157, R167). -/
def programLimitMs : Nat := 5
/-- Erase limit of one flash step (R157, R168). -/
def eraseLimitMs : Nat := 800

/-! ## Limits -/

/-- The largest 32-bit count. -/
def max32 : Nat := 4294967295
/-- The largest 16-bit count. -/
def max16 : Nat := 65535
/-- Places in the Commit Queue (R159). -/
def commitPlaces : Nat := 12
/-- The largest depth at which a record other than SHOT is admitted (R160). -/
def commitRejectDepth : Nat := 7
/-- Places in the Charge Queue (R125). -/
def queuePlaces : Nat := 4
/-- The largest sector sequence number (R162). -/
def maxSequence : Nat := 8405023
/-- The largest heater budget (R46). -/
def maxBudget : Nat := 150000
/-- Samples a calibration collects (R105). -/
def calSamples : Nat := 80
/-- The eject limit of a test with no recipe active, in seconds (R141). -/
def testLimitNoRecipe : Nat := 20

/-! ## Flash geometry (R162) -/

/-- Bytes of one sector. -/
def sectorBytes : Nat := 65536
/-- Bytes of one slot. -/
def slotBytes : Nat := 128
/-- Slots of one sector. -/
def sectorSlots : Nat := 512
/-- Record slots of one sector. -/
def recordSlots : Nat := 511

/-! ## What `State.reset` presumes of the outside -/

/-- DESIGN CHOICE (log 5): the number of 64 KiB sectors the memory of `State.reset` reports. -/
def resetSectors : Nat := 256

/-! ## Free values -/

/-- The bytes the flash holds where a program or an erase did not run to its end (R165, R169 give no bytes): byte
`offset` of the `n`-th such area. Nothing constrains it (log 8). -/
opaque freeByte (n offset : Nat) : Byte

/-- The permit seconds remaining that a daylight status read gives while `ms` milliseconds, not a whole number of
seconds, are left (R21 states no rounding). Nothing constrains it (log 28). -/
opaque permitSecondsBetween (ms : Nat) : Nat

/-- How many bytes the station of a port clocks in the `n`-th millisecond (the manual leaves the serial clock to the
station). Nothing constrains it (log 13). -/
opaque bytesClocked (n port : Nat) : Nat

/-- Whether a response begins with byte `j` that the station of a port clocks in the `n`-th millisecond (R180 says only
within the first 64 bytes). Nothing constrains it (log 13). -/
opaque responseBegins (n port j : Nat) : Bool

end Sys2Proof.Config
end

