-- ==== Sys2Proof/Machine/Index.lean ====
section
/-! DEFINITION. The numbered things of the manual (introduction, section 4.2) as inductive types, and a plain family of
values for each: ports 1 to 3, daylights 1 to 4, platens 0 to 4, zones 0 to 9, recipe slots 0 to 7, variants 1 to 3. -/

namespace Sys2Proof

/-- The three station ports. -/
inductive Port | p1 | p2 | p3
deriving DecidableEq, Repr

/-- The four daylights, from the bottom. -/
inductive Daylight | d1 | d2 | d3 | d4
deriving DecidableEq, Repr

/-- The five platens, from the bottom. -/
inductive Platen | pl0 | pl1 | pl2 | pl3 | pl4
deriving DecidableEq, Repr

/-- The ten heat zones; zone 2p is the centre and zone 2p+1 the edge of platen p. -/
inductive Zone | z0 | z1 | z2 | z3 | z4 | z5 | z6 | z7 | z8 | z9
deriving DecidableEq, Repr

/-- The eight recipe slots. -/
inductive RecipeSlot | s0 | s1 | s2 | s3 | s4 | s5 | s6 | s7
deriving DecidableEq, Repr

/-- The three layup variants. -/
inductive Variant | v1 | v2 | v3
deriving DecidableEq, Repr

/-- One value for each of three. -/
structure Three (α : Type) where
  a1 : α
  a2 : α
  a3 : α
deriving DecidableEq, Repr

/-- One value for each of four, in order: daylights 1 to 4, or the four bounding zones of a daylight. -/
structure Four (α : Type) where
  a1 : α
  a2 : α
  a3 : α
  a4 : α
deriving DecidableEq, Repr

/-- One value for each of the platens 0 to 4. -/
structure Five (α : Type) where
  a0 : α
  a1 : α
  a2 : α
  a3 : α
  a4 : α
deriving DecidableEq, Repr

/-- One value for each of the recipe slots 0 to 7. -/
structure Eight (α : Type) where
  a0 : α
  a1 : α
  a2 : α
  a3 : α
  a4 : α
  a5 : α
  a6 : α
  a7 : α
deriving DecidableEq, Repr

/-- One value for each of the zones 0 to 9. -/
structure Ten (α : Type) where
  a0 : α
  a1 : α
  a2 : α
  a3 : α
  a4 : α
  a5 : α
  a6 : α
  a7 : α
  a8 : α
  a9 : α
deriving DecidableEq, Repr

/-! ## Numbers -/

def Port.all : List Port := [.p1, .p2, .p3]
def Daylight.all : List Daylight := [.d1, .d2, .d3, .d4]
def Platen.all : List Platen := [.pl0, .pl1, .pl2, .pl3, .pl4]
def Zone.all : List Zone := [.z0, .z1, .z2, .z3, .z4, .z5, .z6, .z7, .z8, .z9]
def RecipeSlot.all : List RecipeSlot := [.s0, .s1, .s2, .s3, .s4, .s5, .s6, .s7]
def Variant.all : List Variant := [.v1, .v2, .v3]

def Port.num : Port → Nat
  | .p1 => 1 | .p2 => 2 | .p3 => 3

def Daylight.num : Daylight → Nat
  | .d1 => 1 | .d2 => 2 | .d3 => 3 | .d4 => 4

def Platen.num : Platen → Nat
  | .pl0 => 0 | .pl1 => 1 | .pl2 => 2 | .pl3 => 3 | .pl4 => 4

def Zone.num : Zone → Nat
  | .z0 => 0 | .z1 => 1 | .z2 => 2 | .z3 => 3 | .z4 => 4
  | .z5 => 5 | .z6 => 6 | .z7 => 7 | .z8 => 8 | .z9 => 9

def RecipeSlot.num : RecipeSlot → Nat
  | .s0 => 0 | .s1 => 1 | .s2 => 2 | .s3 => 3 | .s4 => 4 | .s5 => 5 | .s6 => 6 | .s7 => 7

def Variant.num : Variant → Nat
  | .v1 => 1 | .v2 => 2 | .v3 => 3

/-- The daylight of a number, none outside 1 to 4. -/
def Daylight.ofNat? : Nat → Option Daylight
  | 1 => some .d1 | 2 => some .d2 | 3 => some .d3 | 4 => some .d4 | _ => none

/-- The zone of a number, none outside 0 to 9. -/
def Zone.ofNat? : Nat → Option Zone
  | 0 => some .z0 | 1 => some .z1 | 2 => some .z2 | 3 => some .z3 | 4 => some .z4
  | 5 => some .z5 | 6 => some .z6 | 7 => some .z7 | 8 => some .z8 | 9 => some .z9 | _ => none

/-- The recipe slot of a number, none outside 0 to 7. -/
def RecipeSlot.ofNat? : Nat → Option RecipeSlot
  | 0 => some .s0 | 1 => some .s1 | 2 => some .s2 | 3 => some .s3
  | 4 => some .s4 | 5 => some .s5 | 6 => some .s6 | 7 => some .s7 | _ => none

/-! ## Geometry of the press (section 4.2) -/

/-- The four bounding zones of daylight d: 2(d−1), 2(d−1)+1, 2d and 2d+1, in zone number order. -/
def Daylight.bounding : Daylight → Four Zone
  | .d1 => ⟨.z0, .z1, .z2, .z3⟩
  | .d2 => ⟨.z2, .z3, .z4, .z5⟩
  | .d3 => ⟨.z4, .z5, .z6, .z7⟩
  | .d4 => ⟨.z6, .z7, .z8, .z9⟩

/-- The platen of a zone, z/2 truncated. -/
def Zone.platen : Zone → Platen
  | .z0 | .z1 => .pl0
  | .z2 | .z3 => .pl1
  | .z4 | .z5 => .pl2
  | .z6 | .z7 => .pl3
  | .z8 | .z9 => .pl4

/-- The daylight below a platen, absent for platen 0. -/
def Platen.below : Platen → Option Daylight
  | .pl0 => none | .pl1 => some .d1 | .pl2 => some .d2 | .pl3 => some .d3 | .pl4 => some .d4

/-- The daylight above a platen, absent for platen 4. -/
def Platen.above : Platen → Option Daylight
  | .pl0 => some .d1 | .pl1 => some .d2 | .pl2 => some .d3 | .pl3 => some .d4 | .pl4 => none

/-! ## Families -/

def Three.get {α : Type} (f : Three α) : Port → α
  | .p1 => f.a1 | .p2 => f.a2 | .p3 => f.a3

def Three.set {α : Type} (f : Three α) (p : Port) (x : α) : Three α :=
  match p with
  | .p1 => { f with a1 := x } | .p2 => { f with a2 := x } | .p3 => { f with a3 := x }

def Three.map {α β : Type} (g : α → β) (f : Three α) : Three β := ⟨g f.a1, g f.a2, g f.a3⟩

/-- The value of a variant (a family of three indexed by variants). -/
def Three.ofVariant {α : Type} (f : Three α) : Variant → α
  | .v1 => f.a1 | .v2 => f.a2 | .v3 => f.a3

def Four.get {α : Type} (f : Four α) : Daylight → α
  | .d1 => f.a1 | .d2 => f.a2 | .d3 => f.a3 | .d4 => f.a4

def Four.set {α : Type} (f : Four α) (d : Daylight) (x : α) : Four α :=
  match d with
  | .d1 => { f with a1 := x } | .d2 => { f with a2 := x }
  | .d3 => { f with a3 := x } | .d4 => { f with a4 := x }

def Four.map {α β : Type} (g : α → β) (f : Four α) : Four β := ⟨g f.a1, g f.a2, g f.a3, g f.a4⟩

def Four.zipWith {α β γ : Type} (g : α → β → γ) (f : Four α) (h : Four β) : Four γ :=
  ⟨g f.a1 h.a1, g f.a2 h.a2, g f.a3 h.a3, g f.a4 h.a4⟩

def Four.all {α : Type} (x : α) : Four α := ⟨x, x, x, x⟩

def Four.toList {α : Type} (f : Four α) : List α := [f.a1, f.a2, f.a3, f.a4]

/-- The daylights of a set, lowest first. -/
def Four.members (f : Four Bool) : List Daylight := Daylight.all.filter (fun d => f.get d)

def Five.get {α : Type} (f : Five α) : Platen → α
  | .pl0 => f.a0 | .pl1 => f.a1 | .pl2 => f.a2 | .pl3 => f.a3 | .pl4 => f.a4

def Five.toList {α : Type} (f : Five α) : List α := [f.a0, f.a1, f.a2, f.a3, f.a4]

def Five.map {α β : Type} (g : α → β) (f : Five α) : Five β := ⟨g f.a0, g f.a1, g f.a2, g f.a3, g f.a4⟩

def Eight.get {α : Type} (f : Eight α) : RecipeSlot → α
  | .s0 => f.a0 | .s1 => f.a1 | .s2 => f.a2 | .s3 => f.a3
  | .s4 => f.a4 | .s5 => f.a5 | .s6 => f.a6 | .s7 => f.a7

def Eight.set {α : Type} (f : Eight α) (s : RecipeSlot) (x : α) : Eight α :=
  match s with
  | .s0 => { f with a0 := x } | .s1 => { f with a1 := x } | .s2 => { f with a2 := x }
  | .s3 => { f with a3 := x } | .s4 => { f with a4 := x } | .s5 => { f with a5 := x }
  | .s6 => { f with a6 := x } | .s7 => { f with a7 := x }

def Eight.map {α β : Type} (g : α → β) (f : Eight α) : Eight β :=
  ⟨g f.a0, g f.a1, g f.a2, g f.a3, g f.a4, g f.a5, g f.a6, g f.a7⟩

def Eight.all {α : Type} (x : α) : Eight α := ⟨x, x, x, x, x, x, x, x⟩

def Ten.get {α : Type} (f : Ten α) : Zone → α
  | .z0 => f.a0 | .z1 => f.a1 | .z2 => f.a2 | .z3 => f.a3 | .z4 => f.a4
  | .z5 => f.a5 | .z6 => f.a6 | .z7 => f.a7 | .z8 => f.a8 | .z9 => f.a9

def Ten.set {α : Type} (f : Ten α) (z : Zone) (x : α) : Ten α :=
  match z with
  | .z0 => { f with a0 := x } | .z1 => { f with a1 := x } | .z2 => { f with a2 := x }
  | .z3 => { f with a3 := x } | .z4 => { f with a4 := x } | .z5 => { f with a5 := x }
  | .z6 => { f with a6 := x } | .z7 => { f with a7 := x } | .z8 => { f with a8 := x }
  | .z9 => { f with a9 := x }

/-- The family that gives each zone its value. -/
def Ten.tabulate {α : Type} (g : Zone → α) : Ten α :=
  ⟨g .z0, g .z1, g .z2, g .z3, g .z4, g .z5, g .z6, g .z7, g .z8, g .z9⟩

def Ten.map {α β : Type} (g : α → β) (f : Ten α) : Ten β := Ten.tabulate (fun z => g (f.get z))

def Ten.all {α : Type} (x : α) : Ten α := Ten.tabulate (fun _ => x)

def Ten.toList {α : Type} (f : Ten α) : List α := Zone.all.map f.get

/-- The sum over the ten zones of a count. -/
def Ten.sum (g : Zone → Nat) : Nat :=
  g .z0 + g .z1 + g .z2 + g .z3 + g .z4 + g .z5 + g .z6 + g .z7 + g .z8 + g .z9

/-- A set of variants. -/
abbrev VariantSet := Three Bool

/-- The variants of a set, lowest first. -/
def VariantSet.members (f : VariantSet) : List Variant := Variant.all.filter (fun v => f.ofVariant v)

/-- The set of the variants that pass a test. -/
def VariantSet.such (test : Variant → Bool) : VariantSet := ⟨test .v1, test .v2, test .v3⟩

end Sys2Proof
end

