-- ==== Sys2Proof/Machine/Recipe.lean ====
section
/-! DEFINITION. The recipe record (R146), in its four groups of fields: heat, cure, layup, name and eject limit. -/

namespace Sys2Proof.Machine

/-- One piece of a layup: nominal weight and tolerance in grams (R113). -/
structure PieceSpec where
  nominal : Nat
  tolerance : Nat
deriving DecidableEq, Repr

/-- One variant of the layup (R113): whether it is enabled, and its pieces in order. -/
structure VariantSpec where
  enabled : Bool
  pieces : List PieceSpec
deriving DecidableEq, Repr

/-- The heat fields (R146). -/
structure HeatFields where
  platen : Five Nat
  bias : Ten Int
  readyBand : Nat
  overBand : Nat
deriving DecidableEq, Repr

/-- The cure fields (R146): reference temperature, doubling step, minimum cure temperature, target, minimum dwell,
interruption limit. -/
structure CureFields where
  tref : Nat
  step : Nat
  tmin : Nat
  target : Nat
  dwell : Nat
  limit : Nat
deriving DecidableEq, Repr

/-- The layup fields (R113). -/
structure LayupFields where
  variants : Three VariantSpec
  threshold : Nat
  bandMin : Nat
  bandMax : Nat
  driftLimit : Nat
  gapLimit : Nat
  recoveryLimit : Nat
  life : Nat
  prefixHold : Bool
deriving DecidableEq, Repr

/-- A recipe record (R146). -/
structure Recipe where
  name : List Byte
  heat : HeatFields
  cure : CureFields
  eject : Nat
  layup : LayupFields
deriving DecidableEq, Repr

end Sys2Proof.Machine
end

