-- ==== Sys2Proof/Machine/Records.lean ====
section
/-! DEFINITION. Timestamps and the three history records with their parts: the charge record (R124), the shot record
(section 1.3, R3 table), the HEAT_TRIP record (R73). -/

namespace Sys2Proof.Machine

/-- A timestamp (section 4.6, R186): a 32-bit value and its clock-set flag. -/
structure Stamp where
  value : Nat
  set : Bool
deriving DecidableEq, Repr

/-- The ten states of a daylight entry (R1), coded 0 to 9 in this order (R5). -/
inductive DaylightState
  | unknown | vacant | loadPermitted | loaded | curing | cured | held | demoulding | awaitTakeout | awaitCommit
deriving DecidableEq, Repr

/-- The demould outcomes (section 1.3), coded 0 to 6 in this order (R191). -/
inductive DemouldOutcome
  | normal | forced | interrupted | opened | stuck | ejectAborted | lostAtReset
deriving DecidableEq, Repr

/-- The ten reasons of a CHARGE_REJECT record (R123), coded 0 to 9 in this order (R191). -/
inductive RejectReason
  | unsettled | wrongPiece | gap | total | drift | aborted | overload | mode | expired | discarded
deriving DecidableEq, Repr

/-- The cause of an invalid one-second value (R32). -/
inductive Cause | openCircuit | overrange
deriving DecidableEq, Repr

/-- A one-second value (R32). -/
inductive SecondValue
  | valid (t : Nat)
  | invalid (cause : Cause)
deriving DecidableEq, Repr

/-- The three trip sources (section 5.1), coded 0 to 2 in this order (R191). -/
inductive Source | openCircuit | over | limit
deriving DecidableEq, Repr

/-- A charge record (R124). -/
structure ChargeRecord where
  number : Nat
  daylight : Daylight
  slot : RecipeSlot
  version : Nat
  variant : Option Variant
  pieces : List Int
  total : Int
  tare : Option Int
  drift : Option Int
  wrongCount : Nat
  start : Stamp
  accept : Option Stamp
  expiry : Option Stamp
  reason : Option RejectReason
  rejectTime : Option Stamp
deriving DecidableEq, Repr

/-- The cure fields of a shot record (section 1.3): absent until cure start. The extremes are the minimum and maximum of
each bounding zone in zone number order, absent until the first cure second that is not paused. -/
structure ShotCure where
  index : Nat
  target : Nat
  seconds : Nat
  paused : Nat
  longest : Nat
  trips : Nat
  extremes : Four (Option (Nat × Nat))
deriving DecidableEq, Repr

/-- A shot record, open or closed (section 1.3). The record index is added when it is written to flash. `strokeFailed` is the
flag that R130 has written into the record as it changes; the table of section 1.3 and the SHOT layout of R191 have no place
for it, so history does not receive it (DEDUCED, log 50). -/
structure Shot where
  number : Nat
  daylight : Daylight
  recipe : Option (RecipeSlot × Nat)
  heatRevision : Nat
  charge : Option ChargeRecord
  load : Option Stamp
  cureStart : Option Stamp
  cured : Option Stamp
  grant : Option Stamp
  takeout : Option Stamp
  cure : Option ShotCure
  lateLoad : Bool
  heatRevised : Bool
  notHome : Bool
  outcome : Option DemouldOutcome
  attempts : Nat
  strokeFailed : Bool
  dropped : Nat
deriving DecidableEq, Repr

/-- A daylight named by a HEAT_TRIP record (R73): its number, its state and the number of the shot it holds. -/
structure TripDaylight where
  daylight : Daylight
  state : DaylightState
  shot : Option Nat
deriving DecidableEq, Repr

/-- A HEAT_TRIP record (R73). -/
structure HeatTrip where
  zone : Zone
  source : Source
  value : SecondValue
  setpoint : Option Nat
  overBand : Option Nat
  time : Stamp
  below : Option TripDaylight
  above : Option TripDaylight
deriving DecidableEq, Repr

/-- A history record (R159). -/
inductive HistRecord
  | shot (s : Shot)
  | chargeReject (c : ChargeRecord)
  | heatTrip (h : HeatTrip)
deriving DecidableEq, Repr

end Sys2Proof.Machine
end

