-- ==== Sys2Proof/Syntax.lean ====
section
/-! DEFINITION. The commands and events of the part: one constructor per row of spec/opcode_table.json. A request of a
station carries its port and its payload bytes (R180, R189); an event carries what comes from outside at it. -/

namespace Sys2Proof

/-- The thirteen press lines (R23). -/
inductive Line
  | mouldClosed
  | mouldOpen
  | ejectFwd (d : Daylight)
  | ejectHome (d : Daylight)
  | heatInhibit
  | modeA
  | modeB
deriving DecidableEq, Repr

/-- What a thermocouple input shows when a sample completes (R34): an open circuit, or a reading before trim. -/
inductive Reading
  | broken
  | level (t : Int)
deriving DecidableEq, Repr

/-- The levels of the two strap pins of one port (R178): true is high. -/
structure Strap where
  first : Bool
  second : Bool
deriving DecidableEq, Repr

/-- What is wrong with a frame (R180): a CRC mismatch, or a length byte above 192. -/
inductive FrameFault
  | crc
  | length
deriving DecidableEq, Repr

/-- The commands and events of the part, in the order of spec/opcode_table.json. -/
inductive Instr
  /-- Power-on or reset input (R188): the strap levels read, and the sectors the memory reports (none: no reply). -/
  | deviceReset (straps : Three Strap) (memory : Option Nat)
  /-- The raw level of a press line becomes asserted or deasserted (R24). -/
  | rawLevelChange (line : Line) (asserted : Bool)
  /-- The debounce intervals of these lines end at this moment (R24). -/
  | debouncedLevelChange (expired : List Line)
  | qualificationExpiry
  /-- A sample period ends with these inputs at the ten thermocouples (R33, R34). -/
  | sampleComplete (inputs : Ten Reading)
  | secondBoundary
  | perSecondTest
  | perSecondAccounting
  | clockSecond
  | chargeQueueExpiry
  | windowStart
  | heaterOnTimeEnd (zone : Zone)
  | permitLapse (daylight : Daylight)
  /-- A raw sample of the load cell converter, with its saturated mark (R99). -/
  | sampleArrival (raw : Int) (saturated : Bool)
  | tareTimerExpiry
  | gapTimerExpiry
  | recoveryTimerExpiry
  | scaleZeroDone
  | scaleSpanDone
  | strokeTimerExpiry (daylight : Daylight)
  | returnTimerExpiry (daylight : Daylight)
  | ejectorTestTimerExpiry (daylight : Daylight)
  | linkArbitration
  /-- The program of a record and its read-back end; whether they compared equal (R167). -/
  | flushProgramDone (equal : Bool)
  | sectorEraseDone
  /-- The header of a sector entry is programmed and read back; whether they compared equal (R168). -/
  | sectorHeaderDone (equal : Bool)
  | settingsEraseDone
  /-- The settings image is programmed and verified; whether it compared equal (R157). -/
  | settingsSaveDone (equal : Bool)
  /-- One flash step of a history format ends; whether its comparison, where it has one, was equal (R171). -/
  | formatStepDone (equal : Bool)
  | portReadDone
  | flashStepTimeout
  | chipSelectDeassert (port : Port)
  | frameError (port : Port) (kind : FrameFault)
  /-- A well-framed request whose code is not in the summary (R180). -/
  | unknownCommand (port : Port) (code : Byte)
  | daylightStatus (port : Port) (payload : List Byte)
  | lineStatus (port : Port) (payload : List Byte)
  | zoneStatus (port : Port) (payload : List Byte)
  | channelRead (port : Port) (payload : List Byte)
  | zoneControlRead (port : Port) (payload : List Byte)
  | budgetStatus (port : Port) (payload : List Byte)
  | tripStatus (port : Port) (payload : List Byte)
  | cureStatus (port : Port) (payload : List Byte)
  | scaleStatus (port : Port) (payload : List Byte)
  | chargeStatus (port : Port) (payload : List Byte)
  | demouldStatus (port : Port) (payload : List Byte)
  | recipeRead (port : Port) (payload : List Byte)
  | recipeStatus (port : Port) (payload : List Byte)
  | settingsStatus (port : Port) (payload : List Byte)
  | historyStatus (port : Port) (payload : List Byte)
  | historyOpen (port : Port) (payload : List Byte)
  | historyNext (port : Port) (payload : List Byte)
  | noticeRead (port : Port) (payload : List Byte)
  | noticeMaskWrite (port : Port) (payload : List Byte)
  | operationResult (port : Port) (payload : List Byte)
  | clockRead (port : Port) (payload : List Byte)
  | portRestart (port : Port) (payload : List Byte)
  | portStatus (port : Port) (payload : List Byte)
  | declare (port : Port) (payload : List Byte)
  | cureStart (port : Port) (payload : List Byte)
  | demouldRequest (port : Port) (payload : List Byte)
  | ejectorTest (port : Port) (payload : List Byte)
  | tripClear (port : Port) (payload : List Byte)
  | loadRequest (port : Port) (payload : List Byte)
  | loadDone (port : Port) (payload : List Byte)
  | loadCancel (port : Port) (payload : List Byte)
  | takeoutDone (port : Port) (payload : List Byte)
  | chargeBegin (port : Port) (payload : List Byte)
  | chargeAbort (port : Port) (payload : List Byte)
  | chargeDiscard (port : Port) (payload : List Byte)
  | forceRelease (port : Port) (payload : List Byte)
  | trimWrite (port : Port) (payload : List Byte)
  | windowLengthSet (port : Port) (payload : List Byte)
  | zoneModeSet (port : Port) (payload : List Byte)
  | manualDutyWrite (port : Port) (payload : List Byte)
  | budgetSet (port : Port) (payload : List Byte)
  | loadWeightWrite (port : Port) (payload : List Byte)
  | gainsWrite (port : Port) (payload : List Byte)
  | tripKindSet (port : Port) (payload : List Byte)
  | stabilityBandWrite (port : Port) (payload : List Byte)
  | scaleZero (port : Port) (payload : List Byte)
  | scaleSpan (port : Port) (payload : List Byte)
  | hydraulicSlotCountWrite (port : Port) (payload : List Byte)
  | recipeWrite (port : Port) (payload : List Byte)
  | recipeActivate (port : Port) (payload : List Byte)
  | recipeClear (port : Port) (payload : List Byte)
  | permitTimeWrite (port : Port) (payload : List Byte)
  | settingsSave (port : Port) (payload : List Byte)
  | historyFormat (port : Port) (payload : List Byte)
  | drain (port : Port) (payload : List Byte)
  | clockSet (port : Port) (payload : List Byte)
  | chipSelectAssert (port : Port)
deriving DecidableEq, Repr

end Sys2Proof
end

