-- ==== Sys2Proof/Machine/State.lean ====
section
/-! DEFINITION. The state of the part, block by block as section 2.1 of the introduction lists them, as plain data, with
its value right after device reset; the reasons a command can stop. -/

namespace Sys2Proof.Machine

/-! ## Clock (R186) -/

structure Clock where
  shop : Nat
  isSet : Bool
  uptime : Nat
deriving DecidableEq, Repr

/-! ## Line Monitor (R23) -/

/-- One press line: raw level, debounced level (none: not formed yet), debounce interval in ms left, interpreted level. -/
structure LineState where
  raw : Bool
  debounced : Option Bool
  interval : Option Nat
  level : Bool
deriving DecidableEq, Repr

/-- One value for each of the thirteen press lines. -/
structure Lines (α : Type) where
  mouldClosed : α
  mouldOpen : α
  ejectFwd : Four α
  ejectHome : Four α
  heatInhibit : α
  modeA : α
  modeB : α
deriving DecidableEq, Repr

/-- The press mode (R28). -/
inductive Mode | run | setup | stop
deriving DecidableEq, Repr

/-- The set of line faults present (R29). -/
structure LineFaults where
  modeIllegal : Bool
  mouldPair : Bool
  ejectPair : Four Bool
deriving DecidableEq, Repr

/-- The reason set of the heat hold (R30); the hold is in force while it is not empty. -/
structure HoldReasons where
  stop : Bool
  inhibit : Bool
deriving DecidableEq, Repr

/-- The Line Monitor; `qualify` is the time left of the qualification timer, none once QUALIFIED (R25). -/
structure LineMonitor where
  line : Lines LineState
  qualify : Option Nat
  mode : Mode
  faults : LineFaults
  hold : HoldReasons
deriving DecidableEq, Repr

/-! ## Thermal Front End (R32) -/

/-- One thermocouple sample (R34). -/
inductive Sample
  | openCircuit
  | overrange
  | valid (t : Nat)
deriving DecidableEq, Repr

/-- One channel: trim code, samples oldest first, latest one-second value, formed flag. -/
structure Channel where
  trim : Int
  history : List Sample
  value : SecondValue
  formed : Bool
deriving DecidableEq, Repr

/-! ## Zone Controller (R45), Heater Budget (R46), Window Generator (R47) -/

inductive ZoneMode | auto | manual | frozen | off
deriving DecidableEq, Repr

structure ZoneControl where
  mode : ZoneMode
  pendingMode : Option ZoneMode
  kp : Nat
  ki : Nat
  weight : Nat
  pendingWeight : Option Nat
  integ : Nat
  unclamped : Int
  request : Nat
  shadow : Option Nat
  shadowPending : Bool
  duty : Nat
  heldHigh : Bool
deriving DecidableEq, Repr

structure Budget where
  inForce : Nat
  pending : Option Nat
  fixed : Nat
  available : Nat
  demand : Nat
  scaled : Bool
deriving DecidableEq, Repr

/-- The Window Generator. `untilStart` is the window clock: the second boundaries still to come until the next window start,
0 when a window start is due (R47, log 53). `blocked` is the model's own (log 42): whether the zone had a trip or the heat hold in force at
the latest window start, which keeps its output off for the whole window (R30, R63, R76). -/
structure Window where
  length : Nat
  pending : Option Nat
  phase : Nat
  untilStart : Nat
  onTime : Ten Nat
  cut : Ten Bool
  blocked : Ten Bool
deriving DecidableEq, Repr

/-! ## Trip Unit (R67) -/

inductive TripKind | cycle | latch
deriving DecidableEq, Repr

inductive TripState | none | cycleInForce | latchInForce
deriving DecidableEq, Repr

/-- The state of one source of one zone: configured kind, trip state, condition flag, onset time and value. -/
structure Trip where
  kind : TripKind
  state : TripState
  present : Bool
  onset : Option (Stamp × SecondValue)
deriving DecidableEq, Repr

/-- The three sources of one zone. -/
structure ZoneTrips where
  openTrip : Trip
  overTrip : Trip
  limitTrip : Trip
deriving DecidableEq, Repr

/-! ## Cure Integrator (R82) -/

inductive SecondClass | none | paused | cold | rated
deriving DecidableEq, Repr

/-- The last pause causes: bounding zones with invalid values, bounding zones with a latched trip, hold flag. -/
structure PauseCauses where
  invalid : List Zone
  latched : List Zone
  hold : Bool
deriving DecidableEq, Repr

structure CureState where
  pause : Nat
  cls : SecondClass
  causes : PauseCauses
  tc : Option Nat
  rate : Option Nat
deriving DecidableEq, Repr

/-! ## Weigh Front End (R98) -/

/-- The calibration in progress: what it computes, the reference weight and whether it was clamped (R105). -/
inductive CalKind
  | zeroing
  | spanning (wref : Nat) (clamped : Bool)
deriving DecidableEq, Repr

/-- The calibration record (R98): requesting port and identity, samples collected, raw sum, saturated-sample flag. -/
structure Calibration where
  kind : CalKind
  port : Port
  op : Nat
  samples : Nat
  sum : Int
  saturated : Bool
deriving DecidableEq, Repr

/-- The Weigh Front End; the calibration state is IDLE while `cal` is none. -/
structure Weigh where
  zero : Int
  span : Nat
  band : Nat
  raw : Option (Int × Bool)
  window : List (Int × Bool)
  filtered : List Int
  settled : Bool
  lastSettled : Option Int
  overload : Bool
  cal : Option Calibration
deriving DecidableEq, Repr

/-! ## Charge Builder (R112) and Charge Queue (R125) -/

inductive BuilderState | idle | taring | collecting | recovery | prefixWait
deriving DecidableEq, Repr

/-- The charge in progress (R112). -/
structure ChargeInProgress where
  number : Nat
  daylight : Daylight
  slot : RecipeSlot
  version : Nat
  start : Stamp
deriving DecidableEq, Repr

/-- An entry of the piece list (R112). -/
structure Piece where
  weight : Int
  liveBefore : VariantSet
  matched : VariantSet
deriving DecidableEq, Repr

/-- The recovery return (R112, R120): the state, live set and waiting variant to return to. -/
structure RecoveryReturn where
  state : BuilderState
  live : VariantSet
  waiting : Option Variant
deriving DecidableEq, Repr

/-- The last outcome (R112): the charge number, and the reason when it was REJECTED (none: ACCEPTED). -/
structure ChargeOutcome where
  number : Nat
  rejected : Option RejectReason
deriving DecidableEq, Repr

/-- The Charge Builder; timers hold the ms left, none when stopped. -/
structure Builder where
  state : BuilderState
  nextNumber : Nat
  charge : Option ChargeInProgress
  tare : Option Int
  reference : Option Int
  latest : Option Int
  pieces : List Piece
  live : VariantSet
  waiting : Option Variant
  recovery : Option RecoveryReturn
  wrongCount : Nat
  tareTimer : Option Nat
  gapTimer : Option Nat
  recoveryTimer : Option Nat
  last : Option ChargeOutcome
deriving DecidableEq, Repr

/-- An entry of the Charge Queue (R125): the record, its age and its charge life, in seconds. -/
structure QueueEntry where
  record : ChargeRecord
  age : Nat
  life : Nat
deriving DecidableEq, Repr

/-! ## Daylight Board (R1, R2, R6) -/

/-- A daylight entry: its state, the ms left of its permit timer, and its shot record, open or closed. -/
structure Entry where
  state : DaylightState
  permit : Option Nat
  shot : Option Shot
deriving DecidableEq, Repr

structure Board where
  entries : Four Entry
  nextShot : Nat
  permitTime : Nat
deriving DecidableEq, Repr

/-! ## Demould Sequencer (R130) and Ejector Arbiter (R131) -/

inductive SeqPhase | idle | waitOpen | waitSlot | forward | retract
deriving DecidableEq, Repr

inductive TestPhase | waitSlot | forward | retract
deriving DecidableEq, Repr

inductive TestResult | passed | noFwd | noHome | aborted
deriving DecidableEq, Repr

/-- An ejector test in progress (R141): its phase, its time limit in seconds, the ms left of its timer. -/
structure EjectorTest where
  phase : TestPhase
  limit : Nat
  timer : Option Nat
deriving DecidableEq, Repr

/-- The ejector state of one daylight (R130). -/
structure Ejector where
  phase : SeqPhase
  attempt : Nat
  failed : Bool
  timer : Option Nat
  test : Option EjectorTest
  lastTest : Option TestResult
  valve : Bool
deriving DecidableEq, Repr

/-- A demould grant in force (R130): its time and the set of daylights granted. -/
structure Grant where
  time : Stamp
  daylights : Four Bool
deriving DecidableEq, Repr

structure Demould where
  grant : Option Grant
  ejectors : Four Ejector
deriving DecidableEq, Repr

/-- The Ejector Arbiter: configured slot count, slot holders, waiting set. -/
structure Arbiter where
  count : Nat
  holders : Four Bool
  waiting : Four Bool
deriving DecidableEq, Repr

/-! ## Recipe Store (R145) and settings (R155) -/

inductive ApplyPoint | atIdle | heatNow
deriving DecidableEq, Repr

structure SlotContent where
  record : Option Recipe
  version : Nat
deriving DecidableEq, Repr

/-- The pending copy (R145). -/
structure PendingCopy where
  record : Recipe
  apply : ApplyPoint
  heatApplied : Bool
deriving DecidableEq, Repr

/-- A settings save accepted and not ended (R157): requesting port, identity, whether the link was granted. -/
structure SaveRequest where
  port : Port
  op : Nat
  granted : Bool
deriving DecidableEq, Repr

/-- The statuses of a response (R182). -/
inductive Status
  | ok | okClamped | inProgress | pending | ended | erased | formatted
  | frameError | unknownCommand | denied | badValue | busy
  | wrongState | nothing | noCharge | notReady | mouldNotOpen | mouldNotClosed | mode | shotLimit | notHome | notCured
  | noRecipe | queueFull | duplicate | budgetBelowFixed | active | none | noMemory | sequenceLimit | noCursor
  | calRange | memoryFault
deriving DecidableEq, Repr

/-- The Recipe Store. The pending selection is none, or some slot, or some none for NO_RECIPE; `changed` is
SETTINGS_CHANGED; `fromImage` says whether the settings at the last reset came from the image (R158). -/
structure RecipeStore where
  slots : Eight SlotContent
  active : Option RecipeSlot
  copy : Option PendingCopy
  selection : Option (Option RecipeSlot)
  heatRevision : Nat
  changed : Bool
  fromImage : Bool
  save : Option SaveRequest
  lastSave : Option Status
deriving DecidableEq, Repr

/-- The values of a settings image (R155), as stored: a value read from flash may lie outside its range (R158). A recipe
record is held as its bytes (R192). -/
structure SettingsImage where
  records : Eight (Option (List Byte))
  versions : Eight Nat
  active : Option RecipeSlot
  kp : Ten Nat
  ki : Ten Nat
  weight : Ten Nat
  trim : Ten Int
  openKind : Ten TripKind
  overKind : Ten TripKind
  budget : Nat
  window : Nat
  band : Nat
  zero : Int
  span : Nat
  slotCount : Nat
  permitTime : Nat
  ringSize : Option Nat
  shotBase : Nat
  seqBase : Nat
deriving DecidableEq, Repr

/-! ## Commit Queue (R159), History Controller (R163), Memory Link (R166), flash -/

structure CommitQueue where
  records : List HistRecord
  dropped : Nat
deriving DecidableEq, Repr

inductive MemoryState | absent | unformatted | ready | formatting | fault
deriving DecidableEq, Repr

inductive FaultCause | programTimeout | eraseTimeout | verify | sequenceLimit
deriving DecidableEq, Repr

/-- A history format accepted and not ended (R170): requesting port, identity, ring size after the clamps, whether a
clamp changed it, first sequence found at acceptance (R171), whether the link was granted, and whether its image was then
built from a snapshot (R171 step 2). -/
structure FormatRequest where
  port : Port
  op : Nat
  size : Nat
  clamped : Bool
  first : Nat
  granted : Bool
  built : Bool
deriving DecidableEq, Repr

/-- The History Controller; the descriptor fields say something only while `ringHeld`. -/
structure History where
  memory : MemoryState
  cause : Option FaultCause
  sectors : Nat
  ringSize : Option Nat
  ringHeld : Bool
  firstSeq : Nat
  oldest : Nat
  head : Nat
  writeSlot : Nat
  torn : Nat
  storedRing : Option Nat
  shotBase : Nat
  seqBase : Nat
  format : Option FormatRequest
deriving DecidableEq, Repr

/-- The step of a history format in progress (R171): erase and program of sector 0, erase of one ring sector, header. -/
inductive FormatStep
  | settingsErase (image : SettingsImage)
  | settingsProgram (image : SettingsImage)
  | ringErase (sector : Nat)
  | header
deriving DecidableEq, Repr

/-- The operation in progress on the Memory Link, with its step (R166). A port read whose port has since opened or
restarted has its answer discarded (R174). -/
inductive LinkOp
  | flushProgram
  | sectorErase (seq : Nat)
  | sectorHeader (seq : Nat)
  | portRead (port : Port) (discard : Bool)
  | settingsErase (image : SettingsImage)
  | settingsProgram (image : SettingsImage)
  | format (step : FormatStep)
deriving DecidableEq, Repr

/-- The Memory Link: the operation, the ms left of its flash step's limit, and what the arbiter remembers (R166). -/
structure Link where
  op : Option LinkOp
  left : Option Nat
  lastPort : Port
  lastRead : Bool
deriving DecidableEq, Repr

/-- Sector 0 of the flash (R155, R158): blank, a partial or unsound image, or a valid image. -/
inductive SettingsSector
  | blank
  | partialImage
  | image (i : SettingsImage)
deriving DecidableEq, Repr

/-- The external flash: sector 0 by its values, the bytes of the other sectors by address. -/
structure Flash where
  settings : SettingsSector
  cells : List Host.Cell
deriving DecidableEq, Repr

/-! ## Station ports (R178 to R185) -/

inductive Role | off | press | charge | supervisor | observer
deriving DecidableEq, Repr

/-- The receive states of a port (R180). -/
inductive Receive | idle | request | working | response | after
deriving DecidableEq, Repr

inductive OpKind | scaleZero | scaleSpan | settingsSave | historyFormat
deriving DecidableEq, Repr

/-- The long-operation slot (R183). -/
inductive OpSlot
  | idle
  | running (kind : OpKind) (op : Nat)
  | done (kind : OpKind) (status : Status) (data : List Byte)
deriving DecidableEq, Repr

/-- The answer of a served history read (R175). -/
inductive ReadAnswer
  | record (bytes : List Byte) (skipped : Nat)
  | ended (skipped : Nat)
  | erased (oldest : Nat)
  | formatted
deriving DecidableEq, Repr

inductive ReadState
  | idle
  | waiting
  | fetched (answer : ReadAnswer)
deriving DecidableEq, Repr

/-- A response (R180): status, detail byte, payload. -/
structure Response where
  status : Status
  detail : Nat
  payload : List Byte
deriving DecidableEq, Repr

/-- A word with one bit per notice kind (R184, R185). -/
abbrev NoticeWord := BitVec 32

structure PortState where
  role : Role
  selected : Bool
  recv : Receive
  notices : NoticeWord
  mask : NoticeWord
  slot : OpSlot
  cursor : Nat
  cursorValid : Bool
  read : ReadState
  response : Option Response
  clocked : Nat
deriving DecidableEq, Repr

/-! ## The whole -/

/-- The state of the part, with the model's own counters and the queue of the commands that wait. `periods` is the place in
the sample time base (R33): the sample periods that have ended since the last second boundary. -/
structure State where
  clock : Clock
  lines : LineMonitor
  channels : Ten Channel
  periods : Nat
  zones : Ten ZoneControl
  budget : Budget
  window : Window
  trips : Ten ZoneTrips
  cure : Four CureState
  weigh : Weigh
  builder : Builder
  queue : List QueueEntry
  board : Board
  demould : Demould
  arbiter : Arbiter
  recipes : RecipeStore
  commit : CommitQueue
  history : History
  link : Link
  flash : Flash
  ports : Three PortState
  nextOp : Nat
  free : Nat
  pending : List Instr
deriving DecidableEq, Repr

/-- The faults of the machine: none. Nothing stops the part: a refused request is answered with a status (R182) and a
failed flash operation is a state of the memory (R169), so no command ends in a fault. -/
inductive Fault : Type
deriving DecidableEq, Repr

/-- The refusals of the machine. -/
inductive Refusal
  /-- Raised by exec's arm of a command that has no meaning yet, with the row's mnemonic (safe: the model stops). No arm
  raises it: every row of the table has its meaning. -/
  | notModelled (mnemonic : String)
deriving DecidableEq, Repr

/-- What a command answers. -/
abbrev Outcome := Host.Outcome State Fault Refusal

/-! ## Right after device reset -/

/-- A press line after reset (R23, R24): no debounced level, the interval of its first level running from the reset, its
interpreted level at the reset interpretation. -/
def LineState.reset (raw level : Bool) : LineState :=
  { raw := raw, debounced := none, interval := some Config.debounceMs, level := level }

/-- The Line Monitor after reset (R23, R25, R30), every raw level deasserted (DESIGN CHOICE, log 6). -/
def LineMonitor.reset : LineMonitor :=
  { line :=
      { mouldClosed := .reset false false, mouldOpen := .reset false false,
        ejectFwd := .all (.reset false false), ejectHome := .all (.reset false false),
        heatInhibit := .reset false true, modeA := .reset false false, modeB := .reset false false }
    qualify := some Config.qualifyMs
    mode := .stop
    faults := { modeIllegal := false, mouldPair := false, ejectPair := .all false }
    hold := { stop := true, inhibit := true } }

/-- A channel after reset with its stored trim code (R32). -/
def Channel.reset (trim : Int) : Channel :=
  { trim := trim, history := [], value := .invalid .openCircuit, formed := false }

/-- A zone after reset with its stored gains and load weight (R45). -/
def ZoneControl.reset (kp ki weight : Nat) : ZoneControl :=
  { mode := .auto, pendingMode := none, kp := kp, ki := ki, weight := weight, pendingWeight := none, integ := 0,
    unclamped := 0, request := 0, shadow := none, shadowPending := false, duty := 0, heldHigh := false }

/-- One trip source after reset with its configured kind (R67). -/
def Trip.reset (kind : TripKind) : Trip := { kind := kind, state := .none, present := false, onset := none }

/-- The Cure Integrator of one daylight after reset, and at cure start (R82, R83). -/
def CureState.reset : CureState :=
  { pause := 0, cls := .none, causes := { invalid := [], latched := [], hold := false }, tc := none, rate := none }

/-- The Charge Builder after reset (R112). -/
def Builder.reset : Builder :=
  { state := .idle, nextNumber := 1, charge := none, tare := none, reference := none, latest := none, pieces := [],
    live := ⟨false, false, false⟩, waiting := none, recovery := none, wrongCount := 0, tareTimer := none,
    gapTimer := none, recoveryTimer := none, last := none }

/-- An ejector after reset (R130). -/
def Ejector.reset : Ejector :=
  { phase := .idle, attempt := 0, failed := false, timer := none, test := none, lastTest := none, valve := false }

/-- A port after reset with a role and the notices set at reset (R184, R187, R188). -/
def PortState.reset (role : Role) (notices : NoticeWord) : PortState :=
  { role := role, selected := false, recv := .idle, notices := notices, mask := 0#32, slot := .idle, cursor := 0,
    cursorValid := false, read := .idle, response := none, clocked := 0 }

/-- The notices set right after this reset (R184): HEAT_HOLD (bit 7), HISTORY_FAULT (bit 12, the memory is
UNFORMATTED) and SETTINGS_DEFAULT (bit 18, sector 0 is blank). -/
def resetNotices : NoticeWord := 0x00041080#32

/-- The machine right after device reset: default settings (R158), every block at its reset value. The outside it was
reset in is the model's choice: a blank flash of 256 sectors (log 5), ports 1, 2, 3 strapped PRESS, CHARGE,
SUPERVISOR (log 4), press lines and chip selects deasserted (log 6). -/
def State.reset : State :=
  { clock := { shop := 0, isSet := false, uptime := 0 }
    lines := LineMonitor.reset
    channels := .all (.reset 0)
    periods := 0
    zones := .all (.reset 32 4 10)
    budget := { inForce := 150000, pending := none, fixed := 0, available := 0, demand := 0, scaled := false }
    window :=
      { length := 4, pending := none, phase := 0, untilStart := 1, onTime := .all 0, cut := .all false
        blocked := .all false }
    trips := .all { openTrip := .reset .latch, overTrip := .reset .cycle, limitTrip := .reset .latch }
    cure := .all .reset
    weigh :=
      { zero := 0, span := 500, band := 5, raw := none, window := [], filtered := [], settled := false,
        lastSettled := none, overload := false, cal := none }
    builder := .reset
    queue := []
    board := { entries := .all { state := .unknown, permit := none, shot := none }, nextShot := 1, permitTime := 30 }
    demould := { grant := none, ejectors := .all .reset }
    arbiter := { count := 2, holders := .all false, waiting := .all false }
    recipes :=
      { slots := .all { record := none, version := 0 }, active := none, copy := none, selection := none,
        heatRevision := 0, changed := true, fromImage := false, save := none, lastSave := none }
    commit := { records := [], dropped := 0 }
    history :=
      { memory := .unformatted, cause := none, sectors := Config.resetSectors, ringSize := none, ringHeld := false,
        firstSeq := 0, oldest := 0, head := 0, writeSlot := 1, torn := 0, storedRing := none, shotBase := 1, seqBase := 0,
        format := none }
    link := { op := none, left := none, lastPort := .p3, lastRead := false }
    flash := { settings := .blank, cells := [] }
    ports :=
      ⟨.reset .press resetNotices, .reset .charge resetNotices, .reset .supervisor resetNotices⟩
    nextOp := 0
    free := 0
    pending := [] }

end Sys2Proof.Machine
end

