-- ==== Sys2Proof/Machine/Flags.lean ====
section
/-! DEFINITION. Conditions and views: what the rules read off the state without changing it. The notice kinds and the
conditions of the level notices, the active recipe, setpoints and readiness, idleness, the offer order of SHOT records,
the heater outputs, the attention line, the ring's indices, the urgency level. -/

namespace Sys2Proof.Machine

/-! ## Readers of the blocks -/

def State.port (s : State) (p : Port) : PortState := s.ports.get p
def State.entry (s : State) (d : Daylight) : Entry := s.board.entries.get d
def State.ejector (s : State) (d : Daylight) : Ejector := s.demould.ejectors.get d
def State.channel (s : State) (z : Zone) : Channel := s.channels.get z
def State.zone (s : State) (z : Zone) : ZoneControl := s.zones.get z

/-- The trip of one source of a zone. -/
def ZoneTrips.get (t : ZoneTrips) : Source → Trip
  | .openCircuit => t.openTrip
  | .over => t.overTrip
  | .limit => t.limitTrip

def ZoneTrips.set (t : ZoneTrips) (src : Source) (x : Trip) : ZoneTrips :=
  match src with
  | .openCircuit => { t with openTrip := x }
  | .over => { t with overTrip := x }
  | .limit => { t with limitTrip := x }

def Source.all : List Source := [.openCircuit, .over, .limit]

def State.trip (s : State) (z : Zone) (src : Source) : Trip := (s.trips.get z).get src

/-- A press line of a family of the thirteen. -/
def Lines.get {α : Type} (f : Lines α) : Line → α
  | .mouldClosed => f.mouldClosed
  | .mouldOpen => f.mouldOpen
  | .ejectFwd d => f.ejectFwd.get d
  | .ejectHome d => f.ejectHome.get d
  | .heatInhibit => f.heatInhibit
  | .modeA => f.modeA
  | .modeB => f.modeB

def Lines.set {α : Type} (f : Lines α) (l : Line) (x : α) : Lines α :=
  match l with
  | .mouldClosed => { f with mouldClosed := x }
  | .mouldOpen => { f with mouldOpen := x }
  | .ejectFwd d => { f with ejectFwd := f.ejectFwd.set d x }
  | .ejectHome d => { f with ejectHome := f.ejectHome.set d x }
  | .heatInhibit => { f with heatInhibit := x }
  | .modeA => { f with modeA := x }
  | .modeB => { f with modeB := x }

def Lines.map {α β : Type} (g : α → β) (f : Lines α) : Lines β :=
  { mouldClosed := g f.mouldClosed, mouldOpen := g f.mouldOpen, ejectFwd := f.ejectFwd.map g,
    ejectHome := f.ejectHome.map g, heatInhibit := g f.heatInhibit, modeA := g f.modeA, modeB := g f.modeB }

/-- The thirteen lines in the order of the table of R23. -/
def Line.all : List Line :=
  [.mouldClosed, .mouldOpen] ++ Daylight.all.map .ejectFwd ++ Daylight.all.map .ejectHome
    ++ [.heatInhibit, .modeA, .modeB]

/-- The interpreted level of a line (R23): what every other block sees. -/
def State.level (s : State) (l : Line) : Bool := (s.lines.line.get l).level

/-! ## Codes shared by rules -/

/-- State codes UNKNOWN 0 to AWAIT_COMMIT 9 (R5, R191). -/
def DaylightState.code : DaylightState → Nat
  | .unknown => 0 | .vacant => 1 | .loadPermitted => 2 | .loaded => 3 | .curing => 4
  | .cured => 5 | .held => 6 | .demoulding => 7 | .awaitTakeout => 8 | .awaitCommit => 9

/-! ## Time -/

/-- The timestamp taken now (R186): the shop clock value while it is set, the uptime otherwise. -/
def State.stamp (s : State) : Stamp :=
  if s.clock.isSet then ⟨s.clock.shop, true⟩ else ⟨s.clock.uptime, false⟩

/-- The timestamp `seconds` after another (R124, expiry time): the shop clock wraps, the uptime saturates (R186).
DEDUCED, log 27. -/
def Stamp.after (t : Stamp) (seconds : Nat) : Stamp :=
  if t.set then ⟨(t.value + seconds) % (Config.max32 + 1), true⟩
  else ⟨min Config.max32 (t.value + seconds), false⟩

/-! ## Heat hold, recipe, readiness -/

/-- The heat hold is in force while its reason set is not empty (R30). -/
def HoldReasons.inForce (h : HoldReasons) : Bool := h.stop || h.inhibit

/-- A heat hold is in force (R30). -/
def State.heatHold (s : State) : Bool := s.lines.hold.inForce

/-- The active recipe (R145): the record in the active slot; none when no slot is active or the slot is empty. -/
def State.activeRecipe (s : State) : Option Recipe :=
  s.recipes.active.bind (fun k => (s.recipes.slots.get k).record)

/-- The version of a recipe slot. -/
def State.slotVersion (s : State) (k : RecipeSlot) : Nat := (s.recipes.slots.get k).version

/-- The setpoint a recipe gives a zone (R42): platen setpoint plus zone bias, clamped to 0 to 3000. -/
def Recipe.setpoint (r : Recipe) (z : Zone) : Nat :=
  (clampInt 0 3000 ((r.heat.platen.get z.platen : Int) + r.heat.bias.get z)).toNat

/-- The setpoint of a zone (R42), none when no recipe is active. -/
def State.setpoint (s : State) (z : Zone) : Option Nat := s.activeRecipe.map (fun r => r.setpoint z)

/-- A trip is in force on one source. -/
def Trip.inForce (t : Trip) : Bool := t.state != .none

/-- The zone has a trip in force, of either kind, from any source (R67). -/
def State.tripInForce (s : State) (z : Zone) : Bool :=
  let t := s.trips.get z
  t.openTrip.inForce || t.overTrip.inForce || t.limitTrip.inForce

/-- The zone has a latched trip in force, from any source (R70, R85). -/
def State.latchInForce (s : State) (z : Zone) : Bool :=
  let t := s.trips.get z
  t.openTrip.state == .latchInForce || t.overTrip.state == .latchInForce || t.limitTrip.state == .latchInForce

/-- The zone has a cycle trip in force, from any source. -/
def State.cycleInForce (s : State) (z : Zone) : Bool :=
  let t := s.trips.get z
  t.openTrip.state == .cycleInForce || t.overTrip.state == .cycleInForce || t.limitTrip.state == .cycleInForce

/-- The readiness conditions of a zone (R42), coded 0 to 6 in this order (R190). -/
inductive Readiness | ready | noRecipe | invalid | tripped | hold | belowBand | aboveBand
deriving DecidableEq, Repr

def Readiness.code : Readiness → Nat
  | .ready => 0 | .noRecipe => 1 | .invalid => 2 | .tripped => 3 | .hold => 4 | .belowBand => 5 | .aboveBand => 6

/-- The readiness condition of a zone (R42): the first check of the table that fails. -/
def State.readiness (s : State) (z : Zone) : Readiness :=
  match s.activeRecipe with
  | none => .noRecipe
  | some r =>
    match (s.channel z).value with
    | .invalid _ => .invalid
    | .valid t =>
      if s.tripInForce z then .tripped
      else if s.heatHold then .hold
      else if t + r.heat.readyBand < r.setpoint z then .belowBand
      else if r.setpoint z + r.heat.readyBand < t then .aboveBand
      else .ready

/-- The lowest-numbered bounding zone of a daylight that is not READY, with its condition (R42). -/
def State.firstUnready (s : State) (d : Daylight) : Option (Zone × Readiness) :=
  (d.bounding.toList.map (fun z => (z, s.readiness z))).find? (fun x => x.2 != .ready)

/-- Daylight d is heat-ready (R3). -/
def State.heatReady (s : State) (d : Daylight) : Bool := (s.firstUnready d).isNone

/-! ## The board, the queues, idleness -/

/-- The daylights in one of some states, lowest first. -/
def State.daylightsIn (s : State) (states : List DaylightState) : List Daylight :=
  Daylight.all.filter (fun d => states.contains (s.entry d).state)

/-- The Charge Queue's entry targeting a daylight (R125: at most one). -/
def State.queued (s : State) (d : Daylight) : Option QueueEntry :=
  s.queue.find? (fun e => e.record.daylight == d)

/-- The cell is idle (R149): every daylight EMPTY or UNKNOWN, the builder IDLE, the Charge Queue empty. -/
def State.cellIdle (s : State) : Bool :=
  Daylight.all.all (fun d => [DaylightState.vacant, .unknown].contains (s.entry d).state)
    && s.builder.state == .idle && s.queue.isEmpty

/-- The number of the shot a daylight holds from load done to admission: "open" in the sense of chapter 1, whether its
record is open or closed (DEDUCED, log 23). -/
def State.shotNumber (s : State) (d : Daylight) : Option Nat := (s.entry d).shot.map (·.number)

/-- The daylight whose SHOT record an offer pass offers (R16): the first that is AWAIT_COMMIT and whose shot number is
lower than that of every other open shot on the board. -/
def State.offerTarget (s : State) : Option Daylight :=
  Daylight.all.find? (fun d =>
    (s.entry d).state == .awaitCommit &&
      match s.shotNumber d with
      | none => false
      | some n => Daylight.all.all (fun d' => d' == d || (s.shotNumber d').all (fun m => n < m)))

/-- The depth of the Commit Queue (R159). -/
def State.depth (s : State) : Nat := s.commit.records.length

/-- The urgency levels of the Commit Queue (R161). -/
inductive Urgency | idle | lazy | steady | pressing
deriving DecidableEq, Repr

/-- The urgency level of a depth (R161). -/
def urgency (depth : Nat) : Urgency :=
  if depth = 0 then .idle else if depth ≤ 3 then .lazy else if depth ≤ 7 then .steady else .pressing

/-! ## The ring's indices (R162, R163) -/

def History.oldestIndex (h : History) : Nat := h.oldest * Config.recordSlots
def History.nextIndex (h : History) : Nat := h.head * Config.recordSlots + (h.writeSlot - 1)

/-! ## Zones and the budget (R45, R46, R57) -/

/-- The next mode of a zone (R45). -/
def ZoneControl.nextMode (z : ZoneControl) : ZoneMode := z.pendingMode.getD z.mode

/-- The next load weight of a zone (R45). -/
def ZoneControl.nextWeight (z : ZoneControl) : Nat := z.pendingWeight.getD z.weight

/-- The shadow duty, an empty one counting as 0 (R45). -/
def ZoneControl.shadowValue (z : ZoneControl) : Nat := z.shadow.getD 0

/-- What a zone adds to the next fixed load (R57). -/
def ZoneControl.nextFixed (z : ZoneControl) : Nat :=
  match z.nextMode with
  | .frozen => z.nextWeight * z.duty
  | .manual => z.nextWeight * z.shadowValue
  | _ => 0

/-- The next fixed load (R57). -/
def nextFixedLoad (zones : Ten ZoneControl) : Nat := Ten.sum (fun z => (zones.get z).nextFixed)

/-- The next budget (R46). -/
def Budget.next (b : Budget) : Nat := b.pending.getD b.inForce

/-- The write bound (R46). -/
def Budget.writeBound (b : Budget) : Nat := min b.inForce b.next

/-- The sum over the zones of load weight × active duty (R56, R66). -/
def dutyLoad (zones : Ten ZoneControl) : Nat := Ten.sum (fun z => (zones.get z).weight * (zones.get z).duty)

/-! ## Outputs -/

/-- A window start is due: the second boundary that ends the window has been taken, or the first one after a device reset
(R47, log 53). -/
def Window.startDue (w : Window) : Bool := w.untilStart == 0

/-- A heater output (R63): on while the phase is less than the on-time, the window-cut flag is clear, the zone has no
trip in force and no heat hold is in force; no output is turned on between window starts, so one that a trip or the hold
kept off at the window start stays off to the end of the window (R30, R50, R76; DEDUCED, log 42). -/
def State.heaterOutput (s : State) (z : Zone) : Bool :=
  decide (s.window.phase < s.window.onTime.get z) && !(s.window.cut.get z) && !(s.tripInForce z) && !s.heatHold
    && !(s.window.blocked.get z)

/-- The attention line of a port (R185). -/
def PortState.attention (p : PortState) : Bool := (p.notices &&& p.mask) != 0#32

/-! ## Notices (R184) -/

/-- The 19 notice kinds. -/
inductive Notice
  | daylight | cured | held | permitLapsed | ejectorFault | trip | tripCycle | heatHold | chargeDone | chargeExpired
  | scaleOverload | commitBlocked | historyFault | dropped | opDone | recipeApplied | lineFault | roleConflict
  | settingsDefault
deriving DecidableEq, Repr

/-- The bit of a notice kind (R184). -/
def Notice.bit : Notice → Nat
  | .daylight => 0 | .cured => 1 | .held => 2 | .permitLapsed => 3 | .ejectorFault => 4 | .trip => 5 | .tripCycle => 6
  | .heatHold => 7 | .chargeDone => 8 | .chargeExpired => 9 | .scaleOverload => 10 | .commitBlocked => 11
  | .historyFault => 12 | .dropped => 13 | .opDone => 14 | .recipeApplied => 15 | .lineFault => 16
  | .roleConflict => 17 | .settingsDefault => 18

/-- The word with only that kind's bit set. -/
def Notice.word (k : Notice) : NoticeWord := 1#32 <<< k.bit

/-- The set of line faults is not empty (R29). -/
def LineFaults.any (f : LineFaults) : Bool :=
  f.modeIllegal || f.mouldPair || f.ejectPair.a1 || f.ejectPair.a2 || f.ejectPair.a3 || f.ejectPair.a4

/-- The memory is in a state in which no record can be written (R163). -/
def MemoryState.faulty : MemoryState → Bool
  | .absent | .unformatted | .fault => true
  | .ready | .formatting => false

/-- The condition of COMMIT_BLOCKED (R17). -/
def State.commitBlocked (s : State) : Bool := s.depth == Config.commitPlaces && s.offerTarget.isSome

/-- The level kinds whose condition is present (R184). -/
def State.levelNotices (s : State) : NoticeWord :=
  (if s.heatHold then Notice.heatHold.word else 0#32)
    ||| (if s.weigh.overload then Notice.scaleOverload.word else 0#32)
    ||| (if s.commitBlocked then Notice.commitBlocked.word else 0#32)
    ||| (if s.history.memory.faulty then Notice.historyFault.word else 0#32)
    ||| (if s.lines.faults.any then Notice.lineFault.word else 0#32)

end Sys2Proof.Machine
end

