-- ==== Sys2Proof/Machine/Ops.lean ====
section
/-! DEFINITION. The operations that several rules share: updates of one block, raising a notice (R184), the transaction of
a request (R179, R180), the delivery of a long operation's result (R183), offers to the Commit Queue (R16, R160), the
application of a pending recipe copy or selection at idle (R149, R151). -/

namespace Sys2Proof.Machine

/-! ## Updates of one item -/

def State.modPort (p : Port) (f : PortState → PortState) (s : State) : State :=
  { s with ports := s.ports.set p (f (s.port p)) }

def State.modEntry (d : Daylight) (f : Entry → Entry) (s : State) : State :=
  { s with board := { s.board with entries := s.board.entries.set d (f (s.entry d)) } }

/-- Change the shot record a daylight holds, if it holds one. -/
def State.modShot (d : Daylight) (f : Shot → Shot) (s : State) : State :=
  s.modEntry d (fun e => { e with shot := e.shot.map f })

def State.modEjector (d : Daylight) (f : Ejector → Ejector) (s : State) : State :=
  { s with demould := { s.demould with ejectors := s.demould.ejectors.set d (f (s.ejector d)) } }

def State.modChannel (z : Zone) (f : Channel → Channel) (s : State) : State :=
  { s with channels := s.channels.set z (f (s.channel z)) }

def State.modZone (z : Zone) (f : ZoneControl → ZoneControl) (s : State) : State :=
  { s with zones := s.zones.set z (f (s.zone z)) }

def State.modTrip (z : Zone) (src : Source) (f : Trip → Trip) (s : State) : State :=
  { s with trips := s.trips.set z ((s.trips.get z).set src (f (s.trip z src))) }

def State.modSlot (k : RecipeSlot) (f : SlotContent → SlotContent) (s : State) : State :=
  { s with recipes := { s.recipes with slots := s.recipes.slots.set k (f (s.recipes.slots.get k)) } }

/-- SETTINGS_CHANGED is set (R155). -/
def State.settingsChanged (s : State) : State := { s with recipes := { s.recipes with changed := true } }

/-- Do the same for each of a list of items, in order. -/
def State.each {α : Type} (items : List α) (f : α → State → State) (s : State) : State :=
  items.foldl (fun s x => f x s) s

/-! ## Notices (R184) -/

/-- A notice kind set in the notice set of one port, unless its role is OFF (R179). -/
def PortState.notify (word : NoticeWord) (p : PortState) : PortState :=
  if p.role = .off then p else { p with notices := p.notices ||| word }

/-- Raise a kind: set it in the notice set of every port whose role is not OFF (R184). -/
def State.raise (k : Notice) (s : State) : State := { s with ports := s.ports.map (PortState.notify k.word) }

/-- Raise a level kind when its condition has begun (R184). -/
def State.raiseOnset (k : Notice) (before after : Bool) (s : State) : State :=
  if after && !before then s.raise k else s

/-! ## The transaction of a request (R179, R180) -/

/-- A row of the command summary (R189): code, roles, payload length. -/
structure Row where
  code : Nat
  roles : List Role
  length : Nat
deriving DecidableEq, Repr

/-- The effect of a request on the state, with its response. -/
abbrev Reply := State × Response

/-- A refusal: every state unchanged, a status and a detail byte (R182). -/
def refuse (status : Status) (detail : Nat) (s : State) : Reply := (s, ⟨status, detail, []⟩)

/-- A refusal whose response carries a payload (R59, R75). -/
def refuseWith (status : Status) (payload : List Byte) (s : State) : Reply := (s, ⟨status, 0, payload⟩)

/-- An accepted request with a status, a detail byte and a payload. -/
def accept (status : Status) (payload : List Byte) (s : State) : Reply := (s, ⟨status, 0, payload⟩)

/-- OK, or OK_CLAMPED when a numeric value was clamped (section 4.4). -/
def okOrClamped (clamped : Bool) : Status := if clamped then .okClamped else .ok

def State.respond (p : Port) (r : Response) (s : State) : State :=
  s.modPort p (fun q => { q with response := some r })

/-- The port has taken a whole request: it enters WORKING (R180). -/
def State.enterWorking (p : Port) (s : State) : State := s.modPort p (fun q => { q with recv := .working })

/-- The role check and the payload length check of R179, then the checks of the rule that owns the request. -/
def checkedReply (row : Row) (p : Port) (payload : List Byte) (body : State → Reply) (s : State) : Reply :=
  if row.roles.contains (s.port p).role then
    if payload.length = row.length then body s else refuse .badValue row.length s
  else refuse .denied 0 s

/-- A request of a station. It is taken when the port is in REQUEST: the port enters WORKING, the checks of R179 are
made, and the response is formed (R180). In any other receive state the bytes are ignored (R180, log 12). -/
def State.request (row : Row) (p : Port) (payload : List Byte) (body : State → Reply) (s : State) : State :=
  if (s.port p).recv = .request then
    let reply := checkedReply row p payload body (s.enterWorking p)
    reply.1.respond p reply.2
  else s

/-! ## Long operations (R183) -/

/-- The result of a long operation is delivered to the slot of the port that requested it, only when that slot is RUNNING
with that operation's identity; the slot becomes DONE and OP_DONE is raised. -/
def State.deliver (p : Port) (op : Nat) (status : Status) (data : List Byte) (s : State) : State :=
  match (s.port p).slot with
  | .running kind op' =>
    if op' = op then (s.modPort p (fun q => { q with slot := .done kind status data })).raise .opDone else s
  | _ => s

/-- A long operation is accepted: the port's slot becomes RUNNING with its kind and a fresh identity (R183, log 37). -/
def State.startOp (p : Port) (kind : OpKind) (s : State) : State :=
  { s.modPort p (fun q => { q with slot := .running kind s.nextOp }) with nextOp := s.nextOp + 1 }

/-- The port's long-operation slot is RUNNING. -/
def OpSlot.isRunning : OpSlot → Bool
  | .running _ _ => true
  | _ => false

/-! ## Daylight Board -/

/-- A daylight entry changes its state and DAYLIGHT is raised (R20). -/
def State.enterState (d : Daylight) (next : DaylightState) (s : State) : State :=
  (s.modEntry d (fun e => { e with state := next })).raise .daylight

/-- A standing permit ends: its timer stops and the daylight becomes EMPTY (R6, R9, R10). -/
def State.endPermit (d : Daylight) (s : State) : State :=
  (s.modEntry d (fun e => { e with permit := none })).enterState d .vacant

/-! ## Offers to the Commit Queue (R160) -/

/-- A CHARGE_REJECT or HEAT_TRIP record is offered: admitted at depth 7 or less, otherwise dropped and counted. -/
def State.offerRecord (r : HistRecord) (s : State) : State :=
  if s.depth ≤ Config.commitRejectDepth then
    { s with commit := { s.commit with records := s.commit.records ++ [r] } }
  else
    State.raise .dropped { s with commit := { s.commit with dropped := satInc Config.max16 s.commit.dropped } }

/-- A SHOT record is admitted: it takes the dropped count, leaves the board, and its daylight becomes EMPTY (R16, R160). -/
def State.admitShot (d : Daylight) (shot : Shot) (s : State) : State :=
  let s1 := { s with commit :=
    { records := s.commit.records ++ [HistRecord.shot { shot with dropped := s.commit.dropped }], dropped := 0 } }
  (s1.modEntry d (fun e => { e with shot := none })).enterState d .vacant

/-- Offer passes, at most `n` (R16): a pass offers one record; an admission makes a new pass. -/
def State.offerPasses : Nat → State → State
  | 0, s => s
  | n + 1, s =>
    match s.offerTarget with
    | none => s
    | some d =>
      match (s.entry d).shot with
      | none => s
      | some shot => if s.depth < Config.commitPlaces then State.offerPasses n (s.admitShot d shot) else s

/-! ## Application of recipe changes at idle (R149, R151) -/

/-- The version after another: after 65535 comes 0 (R147). -/
def nextVersion (v : Nat) : Nat := (v + 1) % 65536

/-- A whole record replaces a slot's content and the slot's version rises (R147). -/
def State.putRecipe (k : RecipeSlot) (r : Recipe) (s : State) : State :=
  s.modSlot k (fun c => { record := some r, version := nextVersion c.version })

/-- An activation is applied (R151): the active slot changes and the heat revision becomes 0. -/
def State.activate (choice : Option RecipeSlot) (s : State) : State :=
  { s with recipes := { s.recipes with active := choice, heatRevision := 0 } }

/-- The pending copy is applied whole (R149 step 1). -/
def State.applyCopy (s : State) : State :=
  match s.recipes.copy with
  | none => s
  | some c =>
    let s1 := match s.recipes.active with
      | some k => s.putRecipe k c.record
      | none => s
    { s1 with recipes := { s1.recipes with copy := none } }

/-- The pending selection is applied (R149 step 2). -/
def State.applySelection (s : State) : State :=
  match s.recipes.selection with
  | none => s
  | some choice =>
    let s1 := s.activate choice
    { s1 with recipes := { s1.recipes with selection := none } }

/-- After a change of a daylight state, of the builder state or of the Charge Queue: when the cell is idle and a copy or a
selection is pending, both are applied, RECIPE_APPLIED is raised once and SETTINGS_CHANGED is set (R149, R153, R155). -/
def State.settleCell (s : State) : State :=
  if s.cellIdle && (s.recipes.copy.isSome || s.recipes.selection.isSome) then
    (s.applyCopy.applySelection.settingsChanged).raise .recipeApplied
  else s

/-- The board's work after an event that can let a SHOT record go (R16): the offer passes, the onset of COMMIT_BLOCKED
against the state `before` the event (R17; one that ends and begins again inside the event is no onset: DEDUCED, log 49), and
the application at idle (R149). -/
def State.settleBoard (before s : State) : State :=
  let s1 := s.offerPasses 4
  (s1.raiseOnset .commitBlocked before.commitBlocked s1.commitBlocked).settleCell

end Sys2Proof.Machine
end

