-- ==== Sys2Proof/Machine/Operands.lean ====
section
/-! DEFINITION. The command summary (R189) row by row, and the fields of request payloads. -/

namespace Sys2Proof.Machine

/-! ## Roles of the summary -/

/-- "All" in the summary: PRESS, CHARGE, SUPERVISOR and OBSERVER. -/
def rolesAll : List Role := [.press, .charge, .supervisor, .observer]

/-! ## The summary (R189) -/

namespace Summary

def daylightStatus : Row := ⟨0x01, rolesAll, 0⟩
def lineStatus : Row := ⟨0x02, rolesAll, 0⟩
def zoneStatus : Row := ⟨0x03, rolesAll, 0⟩
def channelRead : Row := ⟨0x04, rolesAll, 1⟩
def zoneControlRead : Row := ⟨0x05, rolesAll, 0⟩
def budgetStatus : Row := ⟨0x06, rolesAll, 0⟩
def tripStatus : Row := ⟨0x07, rolesAll, 0⟩
def cureStatus : Row := ⟨0x08, rolesAll, 0⟩
def scaleStatus : Row := ⟨0x09, rolesAll, 0⟩
def chargeStatus : Row := ⟨0x0A, rolesAll, 0⟩
def demouldStatus : Row := ⟨0x0B, rolesAll, 0⟩
def recipeRead : Row := ⟨0x0C, rolesAll, 1⟩
def recipeStatus : Row := ⟨0x0D, rolesAll, 0⟩
def settingsStatus : Row := ⟨0x0E, rolesAll, 0⟩
def historyStatus : Row := ⟨0x0F, rolesAll, 0⟩
def historyOpen : Row := ⟨0x10, rolesAll, 5⟩
def historyNext : Row := ⟨0x11, rolesAll, 0⟩
def noticeRead : Row := ⟨0x12, rolesAll, 0⟩
def noticeMaskWrite : Row := ⟨0x13, rolesAll, 4⟩
def operationResult : Row := ⟨0x14, rolesAll, 0⟩
def clockRead : Row := ⟨0x15, rolesAll, 0⟩
def portRestart : Row := ⟨0x16, rolesAll, 0⟩
def portStatus : Row := ⟨0x17, rolesAll, 0⟩
def declare : Row := ⟨0x20, [.press], 2⟩
def cureStart : Row := ⟨0x21, [.press], 0⟩
def demouldRequest : Row := ⟨0x22, [.press], 0⟩
def ejectorTest : Row := ⟨0x23, [.press], 1⟩
def tripClear : Row := ⟨0x24, [.press, .supervisor], 2⟩
def loadRequest : Row := ⟨0x30, [.charge], 1⟩
def loadDone : Row := ⟨0x31, [.charge], 1⟩
def loadCancel : Row := ⟨0x32, [.charge], 1⟩
def takeoutDone : Row := ⟨0x33, [.charge], 1⟩
def chargeBegin : Row := ⟨0x34, [.charge], 1⟩
def chargeAbort : Row := ⟨0x35, [.charge], 0⟩
def chargeDiscard : Row := ⟨0x36, [.charge, .supervisor], 1⟩
def forceRelease : Row := ⟨0x40, [.supervisor], 0⟩
def trimWrite : Row := ⟨0x41, [.supervisor], 2⟩
def windowLengthSet : Row := ⟨0x42, [.supervisor], 1⟩
def zoneModeSet : Row := ⟨0x43, [.supervisor], 2⟩
def manualDutyWrite : Row := ⟨0x44, [.supervisor], 3⟩
def budgetSet : Row := ⟨0x45, [.supervisor], 4⟩
def loadWeightWrite : Row := ⟨0x46, [.supervisor], 2⟩
def gainsWrite : Row := ⟨0x47, [.supervisor], 5⟩
def tripKindSet : Row := ⟨0x48, [.supervisor], 3⟩
def stabilityBandWrite : Row := ⟨0x49, [.supervisor], 2⟩
def scaleZero : Row := ⟨0x4A, [.supervisor], 0⟩
def scaleSpan : Row := ⟨0x4B, [.supervisor], 4⟩
def hydraulicSlotCountWrite : Row := ⟨0x4C, [.supervisor], 1⟩
def recipeWrite : Row := ⟨0x4D, [.supervisor], 140⟩
def recipeActivate : Row := ⟨0x4E, [.supervisor], 1⟩
def recipeClear : Row := ⟨0x4F, [.supervisor], 1⟩
def permitTimeWrite : Row := ⟨0x50, [.supervisor], 2⟩
def settingsSave : Row := ⟨0x51, [.supervisor], 0⟩
def historyFormat : Row := ⟨0x52, [.supervisor], 2⟩
def drain : Row := ⟨0x53, [.supervisor], 0⟩
def clockSet : Row := ⟨0x54, [.supervisor], 4⟩

/-- Every row of the summary. -/
def rows : List Row :=
  [daylightStatus, lineStatus, zoneStatus, channelRead, zoneControlRead, budgetStatus, tripStatus, cureStatus,
    scaleStatus, chargeStatus, demouldStatus, recipeRead, recipeStatus, settingsStatus, historyStatus, historyOpen,
    historyNext, noticeRead, noticeMaskWrite, operationResult, clockRead, portRestart, portStatus]
  ++ [declare, cureStart, demouldRequest, ejectorTest, tripClear, loadRequest, loadDone, loadCancel, takeoutDone,
    chargeBegin, chargeAbort, chargeDiscard, forceRelease]
  ++ [trimWrite, windowLengthSet, zoneModeSet, manualDutyWrite, budgetSet, loadWeightWrite, gainsWrite, tripKindSet,
    stabilityBandWrite, scaleZero, scaleSpan, hydraulicSlotCountWrite, recipeWrite, recipeActivate, recipeClear,
    permitTimeWrite, settingsSave, historyFormat, drain, clockSet]

end Summary

/-! ## Fields of a payload -/

/-- The byte of a payload at an offset, as a number. -/
def byteAt (payload : List Byte) (offset : Nat) : Nat := field payload offset 1

/-- The daylight a payload names at its first byte; none outside 1 to 4. -/
def daylightOf (payload : List Byte) : Option Daylight := Daylight.ofNat? (byteAt payload 0)

/-- The zone or channel a payload names at its first byte; none outside 0 to 9. -/
def zoneOf (payload : List Byte) : Option Zone := Zone.ofNat? (byteAt payload 0)

/-- The recipe slot a payload names at its first byte; none outside 0 to 7. -/
def recipeSlotOf (payload : List Byte) : Option RecipeSlot := RecipeSlot.ofNat? (byteAt payload 0)

/-- A trip source by its code (R191): OPEN 0, OVER 1, LIMIT 2. -/
def sourceOf : Nat → Option Source
  | 0 => some .openCircuit
  | 1 => some .over
  | 2 => some .limit
  | _ => none

/-- A zone mode by its code: AUTO, MANUAL, FROZEN, OFF in the order of R45. -/
def zoneModeOf : Nat → Option ZoneMode
  | 0 => some .auto
  | 1 => some .manual
  | 2 => some .frozen
  | 3 => some .off
  | _ => none

/-- A trip kind by its code: CYCLE, LATCH in the order of R67. -/
def tripKindOf : Nat → Option TripKind
  | 0 => some .cycle
  | 1 => some .latch
  | _ => none

/-- An apply point by its code (R189): 0 AT_IDLE, 1 HEAT_NOW. -/
def applyPointOf : Nat → Option ApplyPoint
  | 0 => some .atIdle
  | 1 => some .heatNow
  | _ => none

/-- The body of a request that names a daylight: one outside 1 to 4 is refused with BAD_VALUE (R22). -/
def onDaylight (payload : List Byte) (body : Daylight → State → Reply) (s : State) : Reply :=
  match daylightOf payload with
  | none => refuse .badValue 0 s
  | some d => body d s

/-- The body of a request that names a zone or a channel: one outside 0 to 9 is refused with BAD_VALUE. -/
def onZone (payload : List Byte) (body : Zone → State → Reply) (s : State) : Reply :=
  match zoneOf payload with
  | none => refuse .badValue 0 s
  | some z => body z s

/-- The body of a request that names a recipe slot: one outside 0 to 7 is refused with BAD_VALUE. -/
def onRecipeSlot (payload : List Byte) (body : RecipeSlot → State → Reply) (s : State) : Reply :=
  match recipeSlotOf payload with
  | none => refuse .badValue 0 s
  | some k => body k s

end Sys2Proof.Machine
end

