-- ==== Sys2Proof/Decode.lean ====
section
/-! DEFINITION. From bytes to commands. The opcode table gives no row any bits, so no word spells a command; what a station
spells is a request frame (R180): its bytes become the request, an UNKNOWN_COMMAND or a FRAME_ERROR. -/

namespace Sys2Proof

open Sys2Proof.Machine

/-- The command a word spells by the table's bits: the table gives none. -/
def decodeTableWord (_nbits _w : Nat) : Option Instr := none

/-- The request of a command code (R189), none when the code is not in the summary. -/
def requestOf : Nat → Option (Port → List Byte → Instr)
  | 0x01 => some .daylightStatus
  | 0x02 => some .lineStatus
  | 0x03 => some .zoneStatus
  | 0x04 => some .channelRead
  | 0x05 => some .zoneControlRead
  | 0x06 => some .budgetStatus
  | 0x07 => some .tripStatus
  | 0x08 => some .cureStatus
  | 0x09 => some .scaleStatus
  | 0x0A => some .chargeStatus
  | 0x0B => some .demouldStatus
  | 0x0C => some .recipeRead
  | 0x0D => some .recipeStatus
  | 0x0E => some .settingsStatus
  | 0x0F => some .historyStatus
  | 0x10 => some .historyOpen
  | 0x11 => some .historyNext
  | 0x12 => some .noticeRead
  | 0x13 => some .noticeMaskWrite
  | 0x14 => some .operationResult
  | 0x15 => some .clockRead
  | 0x16 => some .portRestart
  | 0x17 => some .portStatus
  | 0x20 => some .declare
  | 0x21 => some .cureStart
  | 0x22 => some .demouldRequest
  | 0x23 => some .ejectorTest
  | 0x24 => some .tripClear
  | 0x30 => some .loadRequest
  | 0x31 => some .loadDone
  | 0x32 => some .loadCancel
  | 0x33 => some .takeoutDone
  | 0x34 => some .chargeBegin
  | 0x35 => some .chargeAbort
  | 0x36 => some .chargeDiscard
  | 0x40 => some .forceRelease
  | 0x41 => some .trimWrite
  | 0x42 => some .windowLengthSet
  | 0x43 => some .zoneModeSet
  | 0x44 => some .manualDutyWrite
  | 0x45 => some .budgetSet
  | 0x46 => some .loadWeightWrite
  | 0x47 => some .gainsWrite
  | 0x48 => some .tripKindSet
  | 0x49 => some .stabilityBandWrite
  | 0x4A => some .scaleZero
  | 0x4B => some .scaleSpan
  | 0x4C => some .hydraulicSlotCountWrite
  | 0x4D => some .recipeWrite
  | 0x4E => some .recipeActivate
  | 0x4F => some .recipeClear
  | 0x50 => some .permitTimeWrite
  | 0x51 => some .settingsSave
  | 0x52 => some .historyFormat
  | 0x53 => some .drain
  | 0x54 => some .clockSet
  | _ => none

/-- The command of a complete frame whose length byte and CRC are sound. -/
def commandOf (p : Port) (code : Byte) (payload : List Byte) : Instr :=
  match requestOf code.toNat with
  | some request => request p payload
  | none => .unknownCommand p code

/-- What a port in REQUEST makes of the bytes clocked so far (R180): none while the request is not complete. -/
def decodeFrame (p : Port) (bytes : List Byte) : Option Instr :=
  match bytes with
  | code :: len :: rest =>
    if 192 < len.toNat then some (.frameError p .length)
    else
      let payload := rest.take len.toNat
      match rest.drop len.toNat with
      | [] => none
      | crc :: _ =>
        if crc8 (code :: len :: payload) = crc then some (commandOf p code payload) else some (.frameError p .crc)
  | _ => none

/-- The summary row, the port and the payload of a request; none for a command that is no request. -/
def requestParts : Instr → Option (Row × Port × List Byte)
  | .daylightStatus p b => some (Summary.daylightStatus, p, b)
  | .lineStatus p b => some (Summary.lineStatus, p, b)
  | .zoneStatus p b => some (Summary.zoneStatus, p, b)
  | .channelRead p b => some (Summary.channelRead, p, b)
  | .zoneControlRead p b => some (Summary.zoneControlRead, p, b)
  | .budgetStatus p b => some (Summary.budgetStatus, p, b)
  | .tripStatus p b => some (Summary.tripStatus, p, b)
  | .cureStatus p b => some (Summary.cureStatus, p, b)
  | .scaleStatus p b => some (Summary.scaleStatus, p, b)
  | .chargeStatus p b => some (Summary.chargeStatus, p, b)
  | .demouldStatus p b => some (Summary.demouldStatus, p, b)
  | .recipeRead p b => some (Summary.recipeRead, p, b)
  | .recipeStatus p b => some (Summary.recipeStatus, p, b)
  | .settingsStatus p b => some (Summary.settingsStatus, p, b)
  | .historyStatus p b => some (Summary.historyStatus, p, b)
  | .historyOpen p b => some (Summary.historyOpen, p, b)
  | .historyNext p b => some (Summary.historyNext, p, b)
  | .noticeRead p b => some (Summary.noticeRead, p, b)
  | .noticeMaskWrite p b => some (Summary.noticeMaskWrite, p, b)
  | .operationResult p b => some (Summary.operationResult, p, b)
  | .clockRead p b => some (Summary.clockRead, p, b)
  | .portRestart p b => some (Summary.portRestart, p, b)
  | .portStatus p b => some (Summary.portStatus, p, b)
  | .declare p b => some (Summary.declare, p, b)
  | .cureStart p b => some (Summary.cureStart, p, b)
  | .demouldRequest p b => some (Summary.demouldRequest, p, b)
  | .ejectorTest p b => some (Summary.ejectorTest, p, b)
  | .tripClear p b => some (Summary.tripClear, p, b)
  | .loadRequest p b => some (Summary.loadRequest, p, b)
  | .loadDone p b => some (Summary.loadDone, p, b)
  | .loadCancel p b => some (Summary.loadCancel, p, b)
  | .takeoutDone p b => some (Summary.takeoutDone, p, b)
  | .chargeBegin p b => some (Summary.chargeBegin, p, b)
  | .chargeAbort p b => some (Summary.chargeAbort, p, b)
  | .chargeDiscard p b => some (Summary.chargeDiscard, p, b)
  | .forceRelease p b => some (Summary.forceRelease, p, b)
  | .trimWrite p b => some (Summary.trimWrite, p, b)
  | .windowLengthSet p b => some (Summary.windowLengthSet, p, b)
  | .zoneModeSet p b => some (Summary.zoneModeSet, p, b)
  | .manualDutyWrite p b => some (Summary.manualDutyWrite, p, b)
  | .budgetSet p b => some (Summary.budgetSet, p, b)
  | .loadWeightWrite p b => some (Summary.loadWeightWrite, p, b)
  | .gainsWrite p b => some (Summary.gainsWrite, p, b)
  | .tripKindSet p b => some (Summary.tripKindSet, p, b)
  | .stabilityBandWrite p b => some (Summary.stabilityBandWrite, p, b)
  | .scaleZero p b => some (Summary.scaleZero, p, b)
  | .scaleSpan p b => some (Summary.scaleSpan, p, b)
  | .hydraulicSlotCountWrite p b => some (Summary.hydraulicSlotCountWrite, p, b)
  | .recipeWrite p b => some (Summary.recipeWrite, p, b)
  | .recipeActivate p b => some (Summary.recipeActivate, p, b)
  | .recipeClear p b => some (Summary.recipeClear, p, b)
  | .permitTimeWrite p b => some (Summary.permitTimeWrite, p, b)
  | .settingsSave p b => some (Summary.settingsSave, p, b)
  | .historyFormat p b => some (Summary.historyFormat, p, b)
  | .drain p b => some (Summary.drain, p, b)
  | .clockSet p b => some (Summary.clockSet, p, b)
  | .deviceReset _ _ | .rawLevelChange _ _ | .debouncedLevelChange _ | .qualificationExpiry | .sampleComplete _
  | .secondBoundary | .perSecondTest | .perSecondAccounting | .clockSecond | .chargeQueueExpiry | .windowStart
  | .heaterOnTimeEnd _ | .permitLapse _ | .sampleArrival _ _ | .tareTimerExpiry | .gapTimerExpiry | .recoveryTimerExpiry
  | .scaleZeroDone | .scaleSpanDone | .strokeTimerExpiry _ | .returnTimerExpiry _ | .ejectorTestTimerExpiry _
  | .linkArbitration | .flushProgramDone _ | .sectorEraseDone | .sectorHeaderDone _ | .settingsEraseDone
  | .settingsSaveDone _ | .formatStepDone _ | .portReadDone | .flashStepTimeout | .chipSelectDeassert _
  | .frameError _ _ | .unknownCommand _ _ | .chipSelectAssert _ => none

/-- The frame that a station sends for a request (R180). -/
def encodeFrame (i : Instr) : Option (Port × List Byte) :=
  (requestParts i).map (fun (row, p, payload) =>
    let body := BitVec.ofNat 8 row.code :: BitVec.ofNat 8 payload.length :: payload
    (p, body ++ [crc8 body]))

end Sys2Proof
end

