-- ==== Sys2Proof/Machine/Demould.lean ====
section
/-! DEFINITION. Demoulding and ejectors (chapter 9): the demould grant, ejector sequences and tests, the Ejector Arbiter,
aborts, the slot count. -/

namespace Sys2Proof.Machine

/-! ## Time limits -/

/-- The eject limit in force for sequences, in ms: that of the active recipe (R136; with none active, which no sequence
meets, the limit of a test: log 25). -/
def State.ejectLimitMs (s : State) : Nat := (s.activeRecipe.map (·.eject)).getD Config.testLimitNoRecipe * 1000

/-- The lines of a daylight's ejector as interpreted (R27). -/
def State.fwd (s : State) (d : Daylight) : Bool := s.level (.ejectFwd d)
def State.home (s : State) (d : Daylight) : Bool := s.level (.ejectHome d)

/-! ## Slots (R131, R135) -/

def State.holds (s : State) (d : Daylight) : Bool := s.arbiter.holders.get d
def State.waits (s : State) (d : Daylight) : Bool := s.arbiter.waiting.get d

def State.setHolder (d : Daylight) (b : Bool) (s : State) : State :=
  { s with arbiter := { s.arbiter with holders := s.arbiter.holders.set d b } }

def State.setWaiting (d : Daylight) (b : Bool) (s : State) : State :=
  { s with arbiter := { s.arbiter with waiting := s.arbiter.waiting.set d b } }

/-- The number of slot holders. -/
def Arbiter.held (a : Arbiter) : Nat := a.holders.members.length

/-- The slots in force (R131): the configured count or the number of holders, whichever is larger. -/
def Arbiter.slotsInForce (a : Arbiter) : Nat := max a.count a.held

/-! ## The steps of a sequence (R136 to R138) -/

/-- The grant leaves force when the last daylight of its set leaves DEMOULDING (R133). -/
def State.closeGrant (s : State) : State :=
  match s.demould.grant with
  | none => s
  | some g =>
    if g.daylights.members.any (fun d => (s.entry d).state == .demoulding) then s
    else { s with demould := { s.demould with grant := none } }

/-- The stroke failed flag of a sequence changes; as it changes it is written into the shot record (R130). -/
def State.setFailed (d : Daylight) (b : Bool) (s : State) : State :=
  (s.modEjector d (fun e => { e with failed := b })).modShot d (fun shot => { shot with strokeFailed := b })

/-- The end of a sequence (R137): valve off, timer stopped, phase IDLE, the slot released or the wait ended, the daylight
moved to AWAIT_TAKEOUT. The Arbiter's grants are the caller's. -/
def State.endSequence (d : Daylight) (s : State) : State :=
  let s1 := s.modEjector d (fun e => { e with phase := .idle, timer := none, valve := false })
  (((s1.setHolder d false).setWaiting d false).enterState d .awaitTakeout).closeGrant

/-- EJECT_FWD asserted in FORWARD (R136): the valve turns off and RETURN is entered with the stroke failed flag clear; a
cylinder already home ends the sequence at once (R137). -/
def State.strokeGood (d : Daylight) (s : State) : State :=
  let s1 := (s.modEjector d (fun e =>
    { e with phase := .retract, timer := some s.ejectLimitMs, valve := false })).setFailed d false
  if s1.home d then s1.endSequence d else s1

/-- A sequence enters FORWARD (R136): the attempt rises and is written to the shot, the valve turns on, the stroke timer
starts; EJECT_FWD asserted at entry ends the stroke at once. -/
def State.enterForward (d : Daylight) (s : State) : State :=
  let attempt := (s.ejector d).attempt + 1
  let s1 := ((s.modEjector d (fun e =>
    { e with phase := .forward, attempt := attempt, timer := some s.ejectLimitMs, valve := true })).modShot
      d (fun shot => { shot with attempts := attempt })).setFailed d false
  if s1.fwd d then s1.strokeGood d else s1

/-- EJECT_HOME asserted in RETURN (R137, R138): after a failed first stroke the second attempt begins in the same slot;
otherwise the sequence ends. -/
def State.homeReturn (d : Daylight) (s : State) : State :=
  if (s.ejector d).failed && (s.ejector d).attempt == 1 then s.enterForward d else s.endSequence d

/-- The stroke timer expires in FORWARD (R136): RETURN is entered with the stroke failed flag set, and the outcome is
STUCK when this was the second attempt. A cylinder that is home is seen at once (R138; DEDUCED, log 24). -/
def State.strokeFailed (d : Daylight) (s : State) : State :=
  let s1 := (s.modEjector d (fun e =>
    { e with phase := .retract, timer := some s.ejectLimitMs, valve := false })).setFailed d true
  let s2 := if (s.ejector d).attempt = 2 then s1.modShot d (fun shot => { shot with outcome := some .stuck }) else s1
  if s2.home d then s2.homeReturn d else s2

/-- The return timer expires in RETURN (R137, R138): NOT_HOME is set, EJECTOR_FAULT is raised, a failed stroke makes the
outcome STUCK, and the sequence ends. -/
def State.returnFailed (d : Daylight) (s : State) : State :=
  let failed := (s.ejector d).failed
  let s1 := s.modShot d (fun shot =>
    { shot with notHome := true, outcome := if failed then some .stuck else shot.outcome })
  (s1.raise .ejectorFault).endSequence d

/-! ## The steps of a test (R141) -/

/-- An ejector test ends with a result: valve off, its slot released or its wait ended. -/
def State.endTest (d : Daylight) (result : TestResult) (s : State) : State :=
  ((s.modEjector d (fun e => { e with test := none, lastTest := some result, valve := false })).setHolder d false).setWaiting
    d false

/-- EJECT_FWD asserted in a test's FORWARD: the valve turns off and RETURN is entered with the timer restarted. -/
def State.testStrokeGood (d : Daylight) (s : State) : State :=
  let s1 := s.modEjector d (fun e =>
    { e with valve := false, test := e.test.map (fun t => { t with phase := .retract, timer := some (t.limit * 1000) }) })
  if s1.home d then s1.endTest d .passed else s1

/-- A test receives a slot and enters its FORWARD. -/
def State.testForward (d : Daylight) (s : State) : State :=
  let s1 := s.modEjector d (fun e =>
    { e with valve := true, test := e.test.map (fun t => { t with phase := .forward, timer := some (t.limit * 1000) }) })
  if s1.fwd d then s1.testStrokeGood d else s1

/-! ## The Arbiter's grants (R135) -/

/-- A daylight that receives a slot enters FORWARD, of its sequence or of its test. -/
def State.handSlot (d : Daylight) (s : State) : State :=
  if (s.ejector d).phase = .waitSlot then s.enterForward d
  else if (s.ejector d).test.isSome then s.testForward d
  else s

/-- The Arbiter's grants, at most `n`: while the holders are fewer than the configured count, the lowest-numbered waiting
daylight takes a slot (R135). -/
def State.grantSlots : Nat → State → State
  | 0, s => s
  | n + 1, s =>
    match s.arbiter.waiting.members with
    | [] => s
    | d :: _ =>
      if s.arbiter.held < s.arbiter.count then
        State.grantSlots n (((s.setWaiting d false).setHolder d true).handSlot d)
      else s

/-- The Arbiter makes its grants: at most four daylights wait. -/
def State.arbitrateSlots (s : State) : State := s.grantSlots 4

/-! ## Start of sequences (R134) -/

/-- The daylights whose sequence is in WAIT_OPEN. -/
def State.unstarted (s : State) : List Daylight := Daylight.all.filter (fun d => (s.ejector d).phase == .waitOpen)

/-- When MOULD_OPEN is asserted and the mode is not STOP, every sequence in WAIT_OPEN starts: all join the waiting set,
then the Arbiter makes its grants (R134). -/
def State.startSequences (s : State) : State :=
  if s.level .mouldOpen && s.lines.mode != .stop && !s.unstarted.isEmpty then
    (s.each s.unstarted (fun d s => (s.modEjector d (fun e => { e with phase := .waitSlot })).setWaiting d true)).arbitrateSlots
  else s

/-! ## Aborts (R139, R142) -/

/-- The daylights whose sequence an abort reaches: in WAIT_SLOT, FORWARD or RETURN. -/
def State.abortable (s : State) : List Daylight :=
  Daylight.all.filter (fun d => [SeqPhase.waitSlot, .forward, .retract].contains (s.ejector d).phase)

/-- One sequence is aborted (R139): outcome EJECT_ABORTED unless STUCK, NOT_HOME when an attempt was made and the ejector
is not home, end of the sequence. -/
def State.abortSequence (d : Daylight) (s : State) : State :=
  let out := 1 ≤ (s.ejector d).attempt && !s.home d
  (s.modShot d (fun shot =>
    { shot with
      outcome := if shot.outcome = some .stuck then some .stuck else some .ejectAborted
      notHome := shot.notHome || out })).endSequence d

/-- The daylights with an ejector test in progress. -/
def State.testing (s : State) : List Daylight := Daylight.all.filter (fun d => (s.ejector d).test.isSome)

/-- Sequences and tests named are aborted in daylight number order; the Arbiter makes its grants only after all of them. -/
def State.abortEjectors (seqs tests : Bool) (s : State) : State :=
  let ds := if seqs then s.abortable else []
  let ts := if tests then s.testing else []
  if ds.isEmpty && ts.isEmpty then s
  else ((s.each ds State.abortSequence).each ts (fun d s => s.endTest d .aborted)).arbitrateSlots

/-- A load done that opens a shot in d ends d's test first (R142). -/
def State.abortTestOf (d : Daylight) (s : State) : State :=
  if (s.ejector d).test.isSome then (s.endTest d .aborted).arbitrateSlots else s

/-! ## Changes of the ejector lines (R27, R136 to R138, R141) -/

/-- EJECT_FWD of d becomes asserted. -/
def State.onFwd (d : Daylight) (s : State) : State :=
  if (s.ejector d).phase = .forward then (s.strokeGood d).arbitrateSlots
  else
    match (s.ejector d).test with
    | some t => if t.phase = .forward then (s.testStrokeGood d).arbitrateSlots else s
    | none => s

/-- EJECT_HOME of d becomes asserted. -/
def State.onHome (d : Daylight) (s : State) : State :=
  if (s.ejector d).phase = .retract then (s.homeReturn d).arbitrateSlots
  else
    match (s.ejector d).test with
    | some t => if t.phase = .retract then (s.endTest d .passed).arbitrateSlots else s
    | none => s

/-! ## Commands -/

/-- STROKE_TIMER_EXPIRY (R136). A timer that is not running has no expiry (log 14). -/
def execStrokeTimerExpiry (d : Daylight) (s : State) : Outcome :=
  .next (if (s.ejector d).phase = .forward then (s.strokeFailed d).arbitrateSlots else s)

/-- RETURN_TIMER_EXPIRY (R137, R138, R144). -/
def execReturnTimerExpiry (d : Daylight) (s : State) : Outcome :=
  .next (if (s.ejector d).phase = .retract then (s.returnFailed d).arbitrateSlots else s)

/-- The timer of an ejector test expires (R141): NO_FWD in FORWARD, NO_HOME with EJECTOR_FAULT in RETURN. The timer serves
both phases, so an expiry acts only while it stands at 0: one that EJECT_FWD forestalled finds it restarted (log 14). -/
def State.testTimeout (d : Daylight) (s : State) : State :=
  match (s.ejector d).test with
  | none => s
  | some t =>
    if t.timer = some 0 then
      match t.phase with
      | .waitSlot => s
      | .forward => (s.endTest d .noFwd).arbitrateSlots
      | .retract => ((s.raise .ejectorFault).endTest d .noHome).arbitrateSlots
    else s

/-- EJECTOR_TEST_TIMER_EXPIRY (R141, R144). -/
def execEjectorTestTimerExpiry (d : Daylight) (s : State) : Outcome := .next (s.testTimeout d)

/-- The bit mask of a set of daylights (R190): daylight d at bit d − 1. -/
def daylightMask (ds : List Daylight) : Nat := maskOf (fun d => d.num - 1) ds

/-- One daylight of a demould grant (R133 steps 2 and 3): DEMOULDING, the grant time, the outcome NORMAL for CURED and kept
for HELD, attempt 0, WAIT_OPEN. -/
def State.grantDaylight (d : Daylight) (s : State) : State :=
  let wasCured := (s.entry d).state == .cured
  let s1 := s.modShot d (fun shot =>
    { shot with grant := some s.stamp, outcome := if wasCured then some .normal else shot.outcome, attempts := 0 })
  ((s1.enterState d .demoulding).modEjector d (fun e => { e with phase := .waitOpen, attempt := 0 })).setFailed d false

/-- The demould grant (R133). -/
def State.demouldGrant (ds : List Daylight) (s : State) : State :=
  let set : Four Bool := ⟨ds.contains .d1, ds.contains .d2, ds.contains .d3, ds.contains .d4⟩
  let s1 := { s with demould := { s.demould with grant := some { time := s.stamp, daylights := set } } }
  (s1.each ds State.grantDaylight).startSequences

/-- The checks of a demould request, in order (R132). -/
def demouldRequestBody (s : State) : Reply :=
  if s.lines.mode = .stop then refuse .mode 0 s
  else
    match s.daylightsIn [.unknown, .loadPermitted] with
    | d :: _ => refuse .wrongState d.num s
    | [] =>
      let uncured := s.daylightsIn [.curing, .loaded]
      if !uncured.isEmpty then refuse .notCured (daylightMask uncured) s
      else
        let ds := s.daylightsIn [.cured, .held]
        if ds.isEmpty then refuse .nothing 0 s
        else accept .ok (u8 (daylightMask ds)) (s.demouldGrant ds)

/-- DEMOULD_REQUEST (R132, R133). -/
def execDemouldRequest (p : Port) (payload : List Byte) (s : State) : Outcome :=
  .next (s.request Summary.demouldRequest p payload demouldRequestBody)

/-- The checks and the acceptance of an ejector test (R141). -/
def ejectorTestBody (d : Daylight) (s : State) : Reply :=
  if s.lines.mode ≠ .setup then refuse .mode 0 s
  else if (s.entry d).state ≠ .vacant then refuse .wrongState (s.entry d).state.code s
  else if !s.level .mouldOpen then refuse .mouldNotOpen 0 s
  else if (s.ejector d).test.isSome then refuse .busy 0 s
  else
    let limit := (s.activeRecipe.map (·.eject)).getD Config.testLimitNoRecipe
    let s1 := s.modEjector d (fun e =>
      { e with test := some { phase := .waitSlot, limit := limit, timer := none }, lastTest := none })
    accept .ok [] (s1.setWaiting d true).arbitrateSlots

/-- EJECTOR_TEST (R141). -/
def execEjectorTest (p : Port) (payload : List Byte) (s : State) : Outcome :=
  .next (s.request Summary.ejectorTest p payload (onDaylight payload ejectorTestBody))

/-- A hydraulic slot count write (R140). -/
def slotCountBody (payload : List Byte) (s : State) : Reply :=
  let written := byteAt payload 0
  let count := clampNat 1 4 written
  let s1 := { s with arbiter := { s.arbiter with count := count } }.settingsChanged
  let s2 := if s.arbiter.count < count then s1.arbitrateSlots else s1
  accept (okOrClamped (count != written)) (u8 s2.arbiter.count ++ u8 s2.arbiter.held) s2

/-- HYDRAULIC_SLOT_COUNT_WRITE (R140). -/
def execHydraulicSlotCountWrite (p : Port) (payload : List Byte) (s : State) : Outcome :=
  .next (s.request Summary.hydraulicSlotCountWrite p payload (slotCountBody payload))

end Sys2Proof.Machine
end

