-- ==== Sys2Proof/Machine/Board.lean ====
section
/-! DEFINITION. The Daylight Board (chapter 1): load permits, loads, cure start, force release, mould opening, takeout,
declaration. -/

namespace Sys2Proof.Machine

/-- The lowest UNKNOWN daylight. -/
def State.firstUnknown (s : State) : Option Daylight := (s.daylightsIn [.unknown]).head?

/-! ## Load permits (R5, R6, R9) -/

/-- A permit is granted (R5): LOAD_PERMITTED, its timer running with the permit time in force. -/
def State.grantPermit (d : Daylight) (s : State) : State :=
  (s.modEntry d (fun e => { e with permit := some (s.board.permitTime * 1000) })).enterState d .loadPermitted

/-- The checks of a load request, in order (R5). The permit time of the answer takes the two bytes of section 12.8 (DEDUCED,
log 46). -/
def loadRequestBody (d : Daylight) (s : State) : Reply :=
  if (s.entry d).state ≠ .vacant then refuse .wrongState (s.entry d).state.code s
  else
    match s.firstUnknown with
    | some u => refuse .wrongState (0x10 + u.num) s
    | none =>
      if (s.queued d).isNone then refuse .noCharge 0 s
      else
        match s.firstUnready d with
        | some (z, c) => refuse .notReady (z.num + 16 * c.code) s
        | none =>
          if !s.level .mouldOpen then refuse .mouldNotOpen 0 s
          else if s.lines.mode ≠ .run then refuse .mode 0 s
          else if s.board.nextShot ≥ Config.max32 then refuse .shotLimit 0 s
          else accept .ok (u16 s.board.permitTime) (s.grantPermit d)

/-- LOAD_REQUEST (R5). -/
def execLoadRequest (p : Port) (payload : List Byte) (s : State) : Outcome :=
  .next (s.request Summary.loadRequest p payload (onDaylight payload loadRequestBody))

/-- PERMIT_LAPSE (R6): LOAD_PERMITTED becomes EMPTY, with PERMIT_LAPSED and DAYLIGHT. -/
def execPermitLapse (d : Daylight) (s : State) : Outcome :=
  .next (if (s.entry d).state = .loadPermitted then ((s.endPermit d).raise .permitLapsed).settleCell else s)

/-- A load cancel (R9). -/
def loadCancelBody (d : Daylight) (s : State) : Reply :=
  if (s.entry d).state = .loadPermitted then accept .ok [] (s.endPermit d).settleCell else refuse .wrongState 0 s

/-- LOAD_CANCEL (R9). -/
def execLoadCancel (p : Port) (payload : List Byte) (s : State) : Outcome :=
  .next (s.request Summary.loadCancel p payload (onDaylight payload loadCancelBody))

/-! ## Loads (R7, R8, R126) -/

/-- The shot record a load done opens (R7 step 3). -/
def newShot (s : State) (d : Daylight) (c : ChargeRecord) (late : Bool) : Shot :=
  { number := s.board.nextShot, daylight := d, recipe := some (c.slot, c.version), heatRevision := s.recipes.heatRevision
    charge := some c, load := some s.stamp, cureStart := none, cured := none, grant := none, takeout := none, cure := none
    lateLoad := late, heatRevised := false, notHome := false, outcome := none, attempts := 0, strokeFailed := false,
    dropped := 0 }

/-- A load done opens a shot (R7): the permit timer stops, the Charge Queue's entry leaves (R126), the record is created
with the next shot number, which increments, and the daylight becomes LOADED. -/
def State.openShot (d : Daylight) (entry : QueueEntry) (late : Bool) (s : State) : State :=
  let shot := newShot s d entry.record late
  let s1 := { s with
    queue := s.queue.filter (fun e => e.record.daylight != d)
    board := { s.board with nextShot := s.board.nextShot + 1 } }
  (s1.modEntry d (fun e => { e with permit := none, shot := some shot })).enterState d .loaded

/-- The checks of a load done (R7 for LOAD_PERMITTED, R8 for any other state). -/
def loadDoneBody (d : Daylight) (s : State) : Reply :=
  match (s.entry d).state with
  | .loadPermitted =>
    if s.board.nextShot ≥ Config.max32 then refuse .shotLimit 0 s
    else
      match s.queued d with
      | none => refuse .noCharge 0 s
      | some entry => accept .ok (u32 s.board.nextShot) (s.openShot d entry false)
  | .vacant =>
    if s.firstUnknown.isSome then refuse .wrongState 0 s
    else
      match s.queued d with
      | none => refuse .noCharge 0 s
      | some entry =>
        if s.board.nextShot ≥ Config.max32 then refuse .shotLimit 0 s
        else accept .ok (u32 s.board.nextShot) ((s.abortTestOf d).openShot d entry true)
  | other => refuse .wrongState other.code s

/-- LOAD_DONE (R7, R8). -/
def execLoadDone (p : Port) (payload : List Byte) (s : State) : Outcome :=
  .next (s.request Summary.loadDone p payload (onDaylight payload loadDoneBody))

/-! ## Cure start, force release, mould opening (R11 to R13) -/

/-- One LOADED daylight begins curing (R11, R4, R83): cure start stamped, the target copied, the counts zeroed, the
extremes absent, the Cure Integrator's state reset. -/
def State.startCure (target : Nat) (d : Daylight) (s : State) : State :=
  let cure : ShotCure :=
    { index := 0, target := target, seconds := 0, paused := 0, longest := 0, trips := 0, extremes := .all none }
  let s1 := s.modShot d (fun shot => { shot with cureStart := some s.stamp, cure := some cure })
  { s1.enterState d .curing with cure := s1.cure.set d .reset }

/-- The list of daylights a response carries: a count byte, then their numbers (R190). -/
def daylightList (ds : List Daylight) : List Byte := counted (ds.map (fun d => u8 d.num))

/-- The target of the active recipe (with none active, which no cure start meets: 0, log 25). -/
def State.recipeTarget (s : State) : Nat := (s.activeRecipe.map (·.cure.target)).getD 0

/-- The checks of a cure start, in order (R11). -/
def cureStartBody (s : State) : Reply :=
  match s.daylightsIn [.unknown, .loadPermitted, .demoulding, .awaitTakeout, .awaitCommit] with
  | d :: _ => refuse .wrongState d.num s
  | [] =>
    let ds := s.daylightsIn [.loaded]
    if ds.isEmpty then refuse .nothing 0 s
    else if s.lines.mode ≠ .run then refuse .mode 0 s
    else if !s.level .mouldClosed then refuse .mouldNotClosed 0 s
    else
      match Daylight.all.filter (fun d => (s.entry d).state != .vacant && !s.home d) with
      | d :: _ => refuse .notHome d.num s
      | [] => accept .ok (daylightList ds) (s.each ds (State.startCure s.recipeTarget))

/-- CURE_START (R11). -/
def execCureStart (p : Port) (payload : List Byte) (s : State) : Outcome :=
  .next (s.request Summary.cureStart p payload cureStartBody)

/-- A daylight becomes HELD with an outcome; HELD and DAYLIGHT are raised (R12, R13, R14, R20). -/
def State.holdShot (outcome : DemouldOutcome) (d : Daylight) (s : State) : State :=
  ((s.modShot d (fun shot => { shot with outcome := some outcome })).enterState d .held).raise .held

/-- Every CURING daylight becomes HELD with an outcome. -/
def State.holdCuring (outcome : DemouldOutcome) (s : State) : State :=
  s.each (s.daylightsIn [.curing]) (State.holdShot outcome)

/-- A force release (R13). -/
def forceReleaseBody (s : State) : Reply :=
  let ds := s.daylightsIn [.curing]
  if ds.isEmpty then refuse .nothing 0 s else accept .ok (daylightList ds) (s.holdCuring .forced)

/-- FORCE_RELEASE (R13). -/
def execForceRelease (p : Port) (payload : List Byte) (s : State) : Outcome :=
  .next (s.request Summary.forceRelease p payload forceReleaseBody)

/-! ## Takeout (R15, R16) -/

/-- A shot is closed at takeout (R15): the takeout time stamped, AWAIT_COMMIT. -/
def State.closeShot (d : Daylight) (s : State) : State :=
  (s.modShot d (fun shot => { shot with takeout := some s.stamp })).enterState d .awaitCommit

/-- A takeout done (R15): the shot is closed, records are offered (R16), and the response tells whether d's record was
admitted (log 18). -/
def takeoutDoneBody (d : Daylight) (s : State) : Reply :=
  if (s.entry d).state = .awaitTakeout then
    let s1 := State.settleBoard s (s.closeShot d)
    accept .ok (flag ((s1.entry d).state == .vacant)) s1
  else refuse .wrongState (s.entry d).state.code s

/-- TAKEOUT_DONE (R15). -/
def execTakeoutDone (p : Port) (payload : List Byte) (s : State) : Outcome :=
  .next (s.request Summary.takeoutDone p payload (onDaylight payload takeoutDoneBody))

/-! ## Declaration (R18, R19) -/

/-- The closed SHOT record of a SCRAP declaration (R19). -/
def scrapShot (s : State) (d : Daylight) : Shot :=
  { number := s.board.nextShot, daylight := d
    recipe := s.recipes.active.bind (fun k => s.activeRecipe.map (fun _ => (k, s.slotVersion k)))
    heatRevision := s.recipes.heatRevision, charge := none, load := none, cureStart := none, cured := none, grant := none
    takeout := some s.stamp, cure := none, lateLoad := false, heatRevised := false, notHome := false
    outcome := some .lostAtReset, attempts := 0, strokeFailed := false, dropped := 0 }

/-- A SCRAP declaration builds the record with the next shot number; the daylight becomes AWAIT_COMMIT (R18). -/
def State.scrap (d : Daylight) (s : State) : State :=
  let shot := scrapShot s d
  let s1 := { s with board := { s.board with nextShot := s.board.nextShot + 1 } }
  (s1.modEntry d (fun e => { e with shot := some shot })).enterState d .awaitCommit

/-- A declare of daylight d: declaration 0 is EMPTY, 1 is SCRAP (R18, R189). -/
def declareBody (payload : List Byte) (d : Daylight) (s : State) : Reply :=
  let declaration := byteAt payload 1
  if 1 < declaration then refuse .badValue 0 s
  else if (s.entry d).state ≠ .unknown then refuse .wrongState 0 s
  else if declaration = 0 then accept .ok [] (s.enterState d .vacant).settleCell
  else if s.board.nextShot ≥ Config.max32 then refuse .shotLimit 0 s
  else accept .ok [] (State.settleBoard s (s.scrap d))

/-- DECLARE (R18). -/
def execDeclare (p : Port) (payload : List Byte) (s : State) : Outcome :=
  .next (s.request Summary.declare p payload (onDaylight payload (declareBody payload)))

/-! ## The permit time (R156) -/

/-- A permit time write (R156). -/
def permitTimeBody (payload : List Byte) (s : State) : Reply :=
  let written := field payload 0 2
  let time := clampNat 5 120 written
  accept (okOrClamped (time != written)) [] { s with board := { s.board with permitTime := time } }.settingsChanged

/-- PERMIT_TIME_WRITE (R156). -/
def execPermitTimeWrite (p : Port) (payload : List Byte) (s : State) : Outcome :=
  .next (s.request Summary.permitTimeWrite p payload (permitTimeBody payload))

end Sys2Proof.Machine
end

