-- ==== Sys2Proof/Machine/Charge.lean ====
section
/-! DEFINITION. Charge building and the Charge Queue (chapter 8): beginning a charge, the tare, layup matching, removals,
recovery, prefix hold, the end of a charge, expiry and discard of queued charges. -/

namespace Sys2Proof.Machine

def State.modBuilder (f : Builder → Builder) (s : State) : State := { s with builder := f s.builder }

/-- The layup of the active recipe (R113). -/
def State.layup (s : State) : Option LayupFields := s.activeRecipe.map (·.layup)

/-- The variant of a layup. -/
def LayupFields.variant (l : LayupFields) (v : Variant) : VariantSpec := l.variants.ofVariant v

/-- The length of a variant: its number of pieces (R113). -/
def LayupFields.length (l : LayupFields) (v : Variant) : Nat := (l.variant v).pieces.length

/-- The set of enabled variants (R114 step 3). -/
def LayupFields.enabled (l : LayupFields) : VariantSet := VariantSet.such (fun v => (l.variant v).enabled)

/-- A limit of the layup in seconds, as a timer in ms. -/
def seconds (n : Nat) : Nat := n * 1000

/-! ## The end of a charge (R121, R123, R124) -/

/-- The charge record of the charge in progress (R124), with the variant and drift of a completed charge. -/
def chargeRecord (c : ChargeInProgress) (b : Builder) (variant : Option Variant) (drift : Option Int) : ChargeRecord :=
  { number := c.number, daylight := c.daylight, slot := c.slot, version := c.version, variant := variant
    pieces := b.pieces.map (·.weight), total := (b.pieces.map (·.weight)).sum, tare := b.tare, drift := drift
    wrongCount := b.wrongCount, start := c.start, accept := none, expiry := none, reason := none, rejectTime := none }

/-- The builder returns to IDLE with a last outcome: every timer stopped, no charge in progress, no waiting variant, no
recovery return (R112, R121, R123). -/
def Builder.finish (outcome : ChargeOutcome) (b : Builder) : Builder :=
  { b with
    state := .idle, charge := none, waiting := none, recovery := none, tareTimer := none, gapTimer := none
    recoveryTimer := none, last := some outcome }

/-- A charge record with the reason and the time of its rejection, expiry or discard (R124). -/
def ChargeRecord.rejectedAt (r : ChargeRecord) (reason : RejectReason) (time : Stamp) : ChargeRecord :=
  { r with reason := some reason, rejectTime := some time }

/-- A charge ends rejected (R123): the record is offered, the builder returns to IDLE, CHARGE_DONE is raised. -/
def State.rejectCharge (reason : RejectReason) (variant : Option Variant) (drift : Option Int) (s : State) : State :=
  match s.builder.charge with
  | none => s
  | some c =>
    let record := (chargeRecord c s.builder variant drift).rejectedAt reason s.stamp
    let s1 := s.offerRecord (.chargeReject record)
    ((s1.modBuilder (Builder.finish ⟨c.number, some reason⟩)).raise .chargeDone).settleCell

/-- The variant that a charge in progress has completed and may still outgrow (R119, R124): the waiting variant in
PREFIX_WAIT, and in a RECOVERY that returns there; none in another state (DEDUCED, log 47). -/
def Builder.completedVariant (b : Builder) : Option Variant :=
  match b.state with
  | .prefixWait => b.waiting
  | .recovery => b.recovery.bind (·.waiting)
  | .idle | .taring | .collecting => none

/-- A charge is rejected before it is judged (R115, R120 to R122): its record has the variant completed so far and no drift
(R124). -/
def State.breakCharge (reason : RejectReason) (s : State) : State := s.rejectCharge reason s.builder.completedVariant none

/-- A charge is accepted (R121): the accept time is stamped, the Charge Queue appends the record with age 0 and the
recipe's charge life (R125), the builder returns to IDLE, CHARGE_DONE is raised. -/
def State.acceptCharge (v : Variant) (drift : Int) (life : Nat) (s : State) : State :=
  match s.builder.charge with
  | none => s
  | some c =>
    let record := { chargeRecord c s.builder (some v) (some drift) with
      accept := some s.stamp, expiry := some (s.stamp.after life) }
    let entry : QueueEntry := { record := record, age := 0, life := life }
    let s1 := { s with queue := s.queue ++ [entry] }
    ((s1.modBuilder (Builder.finish ⟨c.number, none⟩)).raise .chargeDone).settleCell

/-- A charge completes with variant v and is judged (R121): TOTAL, then DRIFT, else accepted. -/
def State.completeCharge (l : LayupFields) (v : Variant) (s : State) : State :=
  let total := (s.builder.pieces.map (·.weight)).sum
  let drift := s.builder.latest.getD 0 - s.builder.tare.getD 0 - total
  if total < l.bandMin ∨ (l.bandMax : Int) < total then s.rejectCharge .total (some v) (some drift)
  else if l.driftLimit < drift.natAbs then s.rejectCharge .drift (some v) (some drift)
  else s.acceptCharge v drift l.life

/-! ## Pieces, removals, recovery (R116 to R120) -/

/-- The variants of a live set whose length is n (R117, R118). -/
def LayupFields.completeAt (l : LayupFields) (live : VariantSet) (n : Nat) : List Variant :=
  live.members.filter (fun v => l.length v == n)

/-- A piece of weight delta fits variant v at position n + 1 (R116). -/
def LayupFields.fits (l : LayupFields) (delta : Int) (n : Nat) (v : Variant) : Bool :=
  match (l.variant v).pieces[n]? with
  | none => false
  | some spec => decide ((delta - spec.nominal).natAbs ≤ spec.tolerance)

/-- A wrong piece starts recovery (R120). -/
def State.wrongPiece (l : LayupFields) (s : State) : State :=
  s.modBuilder (fun b =>
    { b with
      wrongCount := satInc 255 b.wrongCount
      recovery := some { state := b.state, live := b.live, waiting := b.waiting }
      gapTimer := none, state := .recovery, waiting := none, recoveryTimer := some (seconds l.recoveryLimit) })

/-- The completion check after an appended piece (R118). -/
def State.completionCheck (l : LayupFields) (s : State) : State :=
  let b := s.builder
  let n := b.pieces.length
  match l.completeAt b.live n with
  | [] => s.modBuilder (fun b => { b with state := .collecting, waiting := none })
  | v :: _ =>
    if !l.prefixHold || !(b.live.members.any (fun w => n < l.length w)) then s.completeCharge l v
    else s.modBuilder (fun b => { b with state := .prefixWait, waiting := some v })

/-- A settled change of at least the threshold (R116): appended when some live variant fits, otherwise a wrong piece. -/
def State.takePiece (l : LayupFields) (delta settled : Int) (s : State) : State :=
  let b := s.builder
  let matched := VariantSet.such (fun v => b.live.ofVariant v && l.fits delta b.pieces.length v)
  if matched.members.isEmpty then s.wrongPiece l
  else
    (s.modBuilder (fun b =>
      { b with
        pieces := b.pieces ++ [{ weight := delta, liveBefore := b.live, matched := matched }]
        live := matched, reference := some settled, gapTimer := some (seconds l.gapLimit) })).completionCheck l

/-- The largest tolerance that any variant of a matched set gives to position n, counted from 1 (R117). -/
def LayupFields.largestTolerance (l : LayupFields) (matched : VariantSet) (n : Nat) : Nat :=
  (matched.members.map (fun v =>
    match (l.variant v).pieces[n - 1]? with
    | none => 0
    | some spec => spec.tolerance)).foldl max 0

/-- A settled change of minus the threshold or less (R117): a true removal pops the last piece, any other is a wrong
piece. -/
def State.takeRemoval (l : LayupFields) (delta settled : Int) (s : State) : State :=
  match s.builder.pieces.getLast? with
  | none => s.wrongPiece l
  | some piece =>
    let n := s.builder.pieces.length
    if (delta + piece.weight).natAbs ≤ l.largestTolerance piece.matched n then
      let waiting := if n = 1 then none else (l.completeAt piece.liveBefore (n - 1)).head?
      s.modBuilder (fun b =>
        { b with
          pieces := b.pieces.dropLast, live := piece.liveBefore, reference := some settled
          gapTimer := some (seconds l.gapLimit), waiting := waiting
          state := if waiting.isSome then .prefixWait else .collecting })
    else s.wrongPiece l

/-- A settle event in COLLECTING or PREFIX_WAIT is a change of weight (R116, R119). -/
def State.takeChange (l : LayupFields) (settled : Int) (s : State) : State :=
  let delta := settled - s.builder.reference.getD 0
  let s1 := s.modBuilder (fun b => { b with latest := some settled })
  if (l.threshold : Int) ≤ delta then s1.takePiece l delta settled
  else if delta ≤ -(l.threshold : Int) then s1.takeRemoval l delta settled
  else s1

/-- A settle event in RECOVERY (R120): the scale back within half the threshold of the reference ends recovery. -/
def State.recoveryEvent (l : LayupFields) (settled : Int) (s : State) : State :=
  let s1 := s.modBuilder (fun b => { b with latest := some settled })
  if (settled - s.builder.reference.getD 0).natAbs ≤ l.threshold / 2 then
    match s.builder.recovery with
    | none => s1
    | some ret =>
      s1.modBuilder (fun b =>
        { b with
          state := ret.state, live := ret.live, waiting := ret.waiting, recoveryTimer := none, recovery := none
          gapTimer := some (seconds l.gapLimit) })
  else s1

/-! ## The tare (R115) -/

/-- The tare is taken (R115): COLLECTING, with the gap timer at the gap limit. -/
def State.takeTare (l : LayupFields) (settled : Int) (s : State) : State :=
  s.modBuilder (fun b =>
    { b with
      tare := some settled, reference := some settled, latest := some settled, tareTimer := none, state := .collecting
      gapTimer := some (seconds l.gapLimit) })

/-! ## What the Weigh Front End hands over (R111) -/

/-- A settle event at the builder (R112: ignored in IDLE). The active recipe's layup is fixed for the whole of a charge
(R113); with none active, which no charge meets, the event is ignored (log 25). -/
def State.settleEvent (settled : Int) (s : State) : State :=
  match s.layup with
  | none => s
  | some l =>
    match s.builder.state with
    | .idle => s
    | .taring => s.takeTare l settled
    | .collecting | .prefixWait => s.takeChange l settled
    | .recovery => s.recoveryEvent l settled

/-- An overload onset at the builder (R122): it rejects a charge in progress; in IDLE it is ignored. -/
def State.overloadEvent (s : State) : State :=
  if s.builder.state = .idle then s else s.breakCharge .overload

/-! ## Commands on the builder -/

/-- TARE_TIMER_EXPIRY (R115): in TARING the charge is rejected with UNSETTLED. -/
def execTareTimerExpiry (s : State) : Outcome :=
  .next (if s.builder.state = .taring then s.breakCharge .unsettled else s)

/-- The gap timer expires (R121): GAP in COLLECTING; in PREFIX_WAIT the charge completes with the waiting variant. It acts
only while the timer stands at 0: an expiry that a piece, a removal or a return from recovery forestalled finds the timer
restarted, and the charge goes on (R119; log 14). -/
def State.gapExpiry (s : State) : State :=
  if s.builder.gapTimer = some 0 then
    match s.builder.state, s.layup, s.builder.waiting with
    | .collecting, _, _ => s.breakCharge .gap
    | .prefixWait, some l, some v => s.completeCharge l v
    | _, _, _ => s
  else s

/-- GAP_TIMER_EXPIRY (R121). -/
def execGapTimerExpiry (s : State) : Outcome := .next s.gapExpiry

/-- RECOVERY_TIMER_EXPIRY (R120): in RECOVERY the charge is rejected with WRONG_PIECE. -/
def execRecoveryTimerExpiry (s : State) : Outcome :=
  .next (if s.builder.state = .recovery then s.breakCharge .wrongPiece else s)

/-- The codes of the builder states, in the order of R112. -/
def BuilderState.code : BuilderState → Nat
  | .idle => 0 | .taring => 1 | .collecting => 2 | .recovery => 3 | .prefixWait => 4

/-- The next charge number: after 4294967295 comes 1 (R114 step 1). -/
def nextChargeNumber (n : Nat) : Nat := if n ≥ Config.max32 then 1 else n + 1

/-- A charge begins (R114 steps 1 to 4). -/
def State.beginCharge (d : Daylight) (k : RecipeSlot) (l : LayupFields) (s : State) : State :=
  s.modBuilder (fun b =>
    { b with
      charge := some
        { number := b.nextNumber, daylight := d, slot := k, version := s.slotVersion k, start := s.stamp }
      nextNumber := nextChargeNumber b.nextNumber
      pieces := [], live := l.enabled, wrongCount := 0, tare := none, reference := none, latest := none
      waiting := none, recovery := none, state := .taring, tareTimer := some Config.tareMs })

/-- The checks and the acceptance of a charge begin (R114); a scale already SETTLED gives the tare at once (R115). -/
def chargeBeginBody (d : Daylight) (s : State) : Reply :=
  if s.builder.state ≠ .idle ∨ s.weigh.cal.isSome then refuse .busy 0 s
  else if s.lines.mode ≠ .run then refuse .mode 0 s
  else
    match s.recipes.active, s.layup with
    | some k, some l =>
      if s.queue.length ≥ Config.queuePlaces then refuse .queueFull 0 s
      else if (s.queued d).isSome then refuse .duplicate 0 s
      else
        let number := s.builder.nextNumber
        let s1 := s.beginCharge d k l
        let s2 := match s.weigh.settled, s.weigh.lastSettled with
          | true, some settled => s1.takeTare l settled
          | _, _ => s1
        accept .ok (u32 number ++ u8 s2.builder.state.code) s2
    | _, _ => refuse .noRecipe 0 s

/-- CHARGE_BEGIN (R114). -/
def execChargeBegin (p : Port) (payload : List Byte) (s : State) : Outcome :=
  .next (s.request Summary.chargeBegin p payload (onDaylight payload chargeBeginBody))

/-- A charge abort (R122). -/
def chargeAbortBody (s : State) : Reply :=
  match s.builder.state, s.builder.charge with
  | .idle, _ => refuse .nothing 0 s
  | _, none => refuse .nothing 0 s
  | _, some c => accept .ok (u32 c.number) (s.breakCharge .aborted)

/-- CHARGE_ABORT (R122). -/
def execChargeAbort (p : Port) (payload : List Byte) (s : State) : Outcome :=
  .next (s.request Summary.chargeAbort p payload chargeAbortBody)

/-! ## The Charge Queue (R127, R128) -/

/-- A removed entry's record is offered with a reason and the reject time (R124). -/
def State.offerRemoved (e : QueueEntry) (reason : RejectReason) (s : State) : State :=
  s.offerRecord (.chargeReject (e.record.rejectedAt reason s.stamp))

/-- An entry is due at the expiry check (R127): its age has reached its life and its daylight holds no permit. -/
def State.expired (s : State) (e : QueueEntry) : Bool :=
  decide (e.life ≤ e.age) && (s.entry e.record.daylight).state != .loadPermitted

/-- CHARGE_QUEUE_EXPIRY (R127): every age rises by one, then the entries that are due are removed and offered one after
another in queue order, each with CHARGE_EXPIRED. -/
def execChargeQueueExpiry (s : State) : Outcome :=
  let aged := s.queue.map (fun e => { e with age := e.age + 1 })
  let due := aged.filter s.expired
  let s1 := { s with queue := aged.filter (fun e => !s.expired e) }
  let s2 := s1.each due (fun e s => (s.offerRemoved e .expired).raise .chargeExpired)
  .next (if due.isEmpty then s2 else s2.settleCell)

/-- A charge discard (R128, R10): the entry is removed and offered with DISCARDED; a standing permit is withdrawn. -/
def chargeDiscardBody (d : Daylight) (s : State) : Reply :=
  match s.queued d with
  | none => refuse .noCharge 0 s
  | some e =>
    let s1 := State.offerRemoved e .discarded { s with queue := s.queue.filter (fun x => x.record.daylight != d) }
    let s2 := if (s.entry d).state = .loadPermitted then (s1.endPermit d).raise .permitLapsed else s1
    accept .ok (u32 e.record.number) s2.settleCell

/-- CHARGE_DISCARD (R128). -/
def execChargeDiscard (p : Port) (payload : List Byte) (s : State) : Outcome :=
  .next (s.request Summary.chargeDiscard p payload (onDaylight payload chargeDiscardBody))

end Sys2Proof.Machine
end

