-- ==== Sys2Proof/Machine/Cure.lean ====
section
/-! DEFINITION. The Cure Integrator (chapter 6): the accounted second of each CURING daylight. -/

namespace Sys2Proof.Machine

/-! ## The pause test (R85) -/

/-- The zone's one-second value is invalid. -/
def State.invalidValue (s : State) (z : Zone) : Bool :=
  match (s.channel z).value with
  | .invalid _ => true
  | .valid _ => false

/-- The conditions that pause a second of daylight d (R85). -/
def State.pauseCauses (s : State) (d : Daylight) : PauseCauses :=
  { invalid := d.bounding.toList.filter s.invalidValue, latched := d.bounding.toList.filter s.latchInForce
    hold := s.heatHold }

/-- Some condition pauses the second. -/
def PauseCauses.any (c : PauseCauses) : Bool := !c.invalid.isEmpty || !c.latched.isEmpty || c.hold

/-! ## The rate factor (R89 to R91) -/

/-- The base rate of a whole number of doubling steps k, −8 to 3 (R91). -/
def baseRate (k : Int) : Nat := if 0 ≤ k then 256 * 2 ^ k.toNat else 256 / 2 ^ (-k).toNat

/-- The rate factor of a second that is neither paused nor cold (R90, R91), in 1/256 equivalent second. -/
def rateFactor (tc tref step : Nat) : Nat :=
  let q : Int := (tc : Int) - tref
  let k := Int.fdiv q step
  let rem := (q - k * step).toNat
  if 3 < k then 4096 else if k < -8 then 0 else baseRate k + baseRate k * rem / step

/-! ## The shot's cure fields (R86, R88, R92) -/

/-- The cure fields after a paused second (R86). -/
def ShotCure.paused_second (pause : Nat) (c : ShotCure) : ShotCure :=
  { c with
    seconds := satInc Config.max16 c.seconds, paused := satInc Config.max16 c.paused, longest := max c.longest pause }

/-- The extremes of one bounding zone take its value (R88). -/
def takeExtreme (x : Option (Nat × Nat)) (t : Nat) : Option (Nat × Nat) :=
  match x with
  | none => some (t, t)
  | some (lo, hi) => some (min lo t, max hi t)

/-- The cure fields after a second that is not paused (R88, R92). -/
def ShotCure.counted_second (values : Four Nat) (rate : Nat) (c : ShotCure) : ShotCure :=
  { c with
    index := min Config.max32 (c.index + rate), seconds := satInc Config.max16 c.seconds
    extremes := Four.zipWith takeExtreme c.extremes values }

/-- The temperature of a value, 0 for an invalid one (which no counted second meets). -/
def SecondValue.temperature : SecondValue → Nat
  | .valid t => t
  | .invalid _ => 0

/-! ## Transitions (R14, R87, R93) -/

/-- The cure is complete (R93): the index is at least 256 times the target, the cure seconds at least the minimum dwell. -/
def ShotCure.complete (dwell : Nat) (c : ShotCure) : Bool := decide (256 * c.target ≤ c.index ∧ dwell ≤ c.seconds)

/-- Cure completion (R14): CURED, the cured time stamped, CURED and DAYLIGHT raised. -/
def State.completeCure (d : Daylight) (s : State) : State :=
  ((s.modShot d (fun shot => { shot with cured := some s.stamp })).enterState d .cured).raise .cured

/-- The completion test (R93). -/
def State.completionTest (dwell : Nat) (c : ShotCure) (d : Daylight) (s : State) : State :=
  if c.complete dwell then s.completeCure d else s

/-! ## The accounted second (R84) -/

def State.setCure (d : Daylight) (x : CureState) (s : State) : State := { s with cure := s.cure.set d x }

def State.setShotCure (d : Daylight) (c : ShotCure) (s : State) : State :=
  s.modShot d (fun shot => { shot with cure := some c })

/-- A paused second of daylight d (R86, R87). -/
def State.pausedSecond (r : CureFields) (c : ShotCure) (causes : PauseCauses) (d : Daylight) (s : State) : State :=
  let before := s.cure.get d
  let pause := before.pause + 1
  let c' := c.paused_second pause
  let s1 := (s.setCure d { before with pause := pause, cls := .paused, causes := causes }).setShotCure d c'
  if r.limit < pause then s1.holdShot .interrupted d else s1.completionTest r.dwell c' d

/-- A second of daylight d that is not paused (R88 to R93). -/
def State.countedSecond (r : CureFields) (c : ShotCure) (causes : PauseCauses) (d : Daylight) (s : State) : State :=
  let values := d.bounding.map (fun z => (s.channel z).value.temperature)
  let tc := min (min values.a1 values.a2) (min values.a3 values.a4)
  let cold := decide (tc < r.tmin)
  let rate := if cold then 0 else rateFactor tc r.tref r.step
  let c' := c.counted_second values rate
  let s1 := (s.setCure d
    { pause := 0, cls := if cold then .cold else .rated, causes := causes, tc := some tc, rate := some rate }).setShotCure d c'
  s1.completionTest r.dwell c' d

/-- One accounted second of daylight d, when it is CURING (R84). -/
def State.accountSecond (r : CureFields) (d : Daylight) (s : State) : State :=
  if (s.entry d).state = .curing then
    match (s.entry d).shot.bind (·.cure) with
    | none => s
    | some c =>
      let causes := s.pauseCauses d
      if causes.any then s.pausedSecond r c causes d else s.countedSecond r c causes d
  else s

/-- PER_SECOND_ACCOUNTING (R84): every CURING daylight is accounted. Before the channels have formed their values there is
no hand-over (R40, log 31); with no recipe active, which no cure meets, nothing is accounted (log 25). -/
def execPerSecondAccounting (s : State) : Outcome :=
  .next
    (match s.activeRecipe with
    | none => s
    | some r =>
      if Zone.all.all (fun z => (s.channel z).formed) then s.each Daylight.all (State.accountSecond r.cure) else s)

end Sys2Proof.Machine
end

