-- ==== Sys2Proof/Machine/Flash.lean ====
section
/-! DEFINITION. The external flash: its bytes as a canonical list of cells (R162), the slot layouts of records and headers
(R191), what a failed or abandoned step leaves (R165, R169). -/

namespace Sys2Proof.Machine

/-! ## Cells: addresses strictly rising, no byte equal to 0xFF, which an unlisted address reads as (R162) -/

/-- The canonical form holds. -/
def cellsWf : List Host.Cell → Bool
  | [] => true
  | [c] => c.2 != 0xFF#8
  | c :: c' :: rest => c.2 != 0xFF#8 && decide (c.1 < c'.1) && cellsWf (c' :: rest)

/-- The flash's cells hold their canonical form. -/
def Flash.wf (f : Flash) : Bool := cellsWf f.cells

/-- The byte at an address: an erased byte reads 0xFF (R162). -/
def readByte (cells : List Host.Cell) (address : Nat) : Byte :=
  match cells.find? (fun c => c.1 == address) with
  | some c => c.2
  | none => 0xFF#8

/-- The cells of consecutive bytes from an address on; a byte of 0xFF is not listed. -/
def cellsFrom : Nat → List Byte → List Host.Cell
  | _, [] => []
  | address, b :: bs => if b = 0xFF#8 then cellsFrom (address + 1) bs else (address, b) :: cellsFrom (address + 1) bs

/-- Consecutive bytes take new values. -/
def writeRange (base : Nat) (bytes : List Byte) (cells : List Host.Cell) : List Host.Cell :=
  cells.filter (fun c => decide (c.1 < base)) ++ cellsFrom base bytes
    ++ cells.filter (fun c => decide (base + bytes.length ≤ c.1))

/-- `count` consecutive bytes become 0xFF. -/
def eraseRange (base count : Nat) (cells : List Host.Cell) : List Host.Cell :=
  cells.filter (fun c => decide (c.1 < base)) ++ cells.filter (fun c => decide (base + count ≤ c.1))

/-- `count` bytes from an address on. -/
def readRange (cells : List Host.Cell) (base count : Nat) : List Byte :=
  (List.range count).map (fun i => readByte cells (base + i))

/-! ## Sectors and slots (R162) -/

def sectorAddress (sector : Nat) : Nat := sector * Config.sectorBytes
def slotAddress (sector slot : Nat) : Nat := sectorAddress sector + slot * Config.slotBytes

/-- The sector that holds a sequence: (s mod N) + 1 (R162). -/
def sectorOf (ring seq : Nat) : Nat := seq % ring + 1

def Flash.slot (f : Flash) (sector slot : Nat) : List Byte :=
  readRange f.cells (slotAddress sector slot) Config.slotBytes

/-- A slot takes 128 bytes. -/
def Flash.program (sector slot : Nat) (bytes : List Byte) (f : Flash) : Flash :=
  { f with cells := writeRange (slotAddress sector slot) bytes f.cells }

/-- A sector is erased. -/
def Flash.erase (sector : Nat) (f : Flash) : Flash :=
  { f with cells := eraseRange (sectorAddress sector) Config.sectorBytes f.cells }

/-- A slot is blank: it reads all 0xFF (R162). -/
def slotBlank (bytes : List Byte) : Bool := bytes.all (· == 0xFF#8)

/-- A slot is valid: not blank, and its CRC matches (R162). -/
def slotValid (bytes : List Byte) : Bool := !slotBlank bytes && bytes.drop 126 == crcBytes (bytes.take 126)

/-- A slot is torn: not blank, and its CRC does not match (R162). -/
def slotTorn (bytes : List Byte) : Bool := !slotBlank bytes && !slotValid bytes

/-! ## Layouts (R191) -/

/-- The 128 bytes of a slot: 126 bytes, filled with 0x00, and their CRC. -/
def sealSlot (bytes : List Byte) : List Byte :=
  let body := (bytes ++ zeros (126 - bytes.length)).take 126
  body ++ crcBytes body

/-- A header (R191). -/
def headerBytes (ring seq first : Nat) : List Byte :=
  sealSlot (u8 0x10 ++ u8 ring ++ zeros 2 ++ u32 seq ++ u32 first)

/-- A presence word or a byte of flags: bit n for the n-th condition. -/
def bits (conditions : List Bool) : Nat := (conditions.zipIdx.map (fun x => if x.1 then 2 ^ x.2 else 0)).sum

/-- A field of a record that may be absent; an absent one's bytes hold 0x00. -/
def orZeros {α : Type} (width : Nat) (x : Option α) (enc : α → List Byte) : List Byte := x.elim (zeros width) enc

/-- The time of a stamp, or 0x00 bytes. -/
def stampTime (t : Option Stamp) : List Byte := orZeros 4 t (fun t => u32 t.value)

/-- The clock-set flag of a stamp, clear when absent. -/
def stampSet (t : Option Stamp) : Bool := t.any (·.set)

/-- Eight piece weights, 2 signed bytes each; entries beyond the count 0 (R191). -/
def pieceBytes (pieces : List Int) : List Byte := ((pieces.take 8).map s16).flatten ++ zeros (2 * (8 - pieces.length))

/-- Total, tare and drift, 4 signed bytes each. -/
def totalsBytes (c : ChargeRecord) : List Byte := s32 c.total ++ orZeros 4 c.tare s32 ++ orZeros 4 c.drift s32

/-- The codes of the demould outcomes (R191). -/
def DemouldOutcome.code : DemouldOutcome → Nat
  | .normal => 0 | .forced => 1 | .interrupted => 2 | .opened => 3 | .stuck => 4 | .ejectAborted => 5 | .lostAtReset => 6

/-- The codes of the reasons (R191). -/
def RejectReason.code : RejectReason → Nat
  | .unsettled => 0 | .wrongPiece => 1 | .gap => 2 | .total => 3 | .drift => 4 | .aborted => 5 | .overload => 6
  | .mode => 7 | .expired => 8 | .discarded => 9

/-- The codes of the sources (R191). -/
def Source.code : Source → Nat
  | .openCircuit => 0 | .over => 1 | .limit => 2

/-- Minimum and maximum of one bounding zone, 2 bytes each. -/
def extremeBytes (x : Option (Nat × Nat)) : List Byte := orZeros 4 x (fun x => u16 x.1 ++ u16 x.2)

/-- The charge part of a SHOT record, bytes 72 to 119. -/
def chargePart (c : ChargeRecord) : List Byte :=
  u32 c.number ++ orZeros 1 c.variant (fun v => u8 v.num) ++ u8 c.pieces.length ++ u8 c.wrongCount ++ zeros 1
    ++ pieceBytes c.pieces ++ totalsBytes c ++ u32 c.start.value ++ stampTime c.accept ++ stampTime c.expiry

/-- The presence word of a SHOT record. -/
def Shot.presence (r : Shot) : Nat :=
  let extreme (f : Four (Option (Nat × Nat)) → Option (Nat × Nat)) : Bool := r.cure.any (fun c => (f c.extremes).isSome)
  bits [r.recipe.isSome, r.charge.isSome, r.load.isSome, r.cureStart.isSome, r.cured.isSome, r.grant.isSome,
    r.cure.isSome, extreme (·.a1), extreme (·.a2), extreme (·.a3), extreme (·.a4), r.outcome.isSome]

/-- The clock-set flags of a SHOT record (byte 22). -/
def Shot.clockFlags (r : Shot) : Nat :=
  bits [stampSet r.load, stampSet r.cureStart, stampSet r.cured, stampSet r.grant, stampSet r.takeout,
    stampSet (r.charge.map (·.start)), stampSet (r.charge.bind (·.accept)), stampSet (r.charge.bind (·.expiry))]

/-- A SHOT record with its record index (R191). -/
def Shot.bytes (index : Nat) (r : Shot) : List Byte :=
  u8 0x01 ++ u8 r.daylight.num ++ u16 r.presence ++ u32 index ++ u32 r.number
    ++ orZeros 3 r.recipe (fun x => u8 x.1.num ++ u16 x.2) ++ u16 r.heatRevision
    ++ orZeros 1 r.outcome (fun o => u8 o.code) ++ u8 r.attempts ++ u8 (bits [r.lateLoad, r.heatRevised, r.notHome])
    ++ u16 r.dropped ++ u8 r.clockFlags ++ orZeros 1 r.cure (fun c => u8 c.trips)
    ++ stampTime r.load ++ stampTime r.cureStart ++ stampTime r.cured ++ stampTime r.grant ++ stampTime r.takeout
    ++ orZeros 12 r.cure (fun c => u32 c.index ++ u16 c.target ++ u16 c.seconds ++ u16 c.paused ++ u16 c.longest)
    ++ orZeros 16 r.cure (fun c => (c.extremes.toList.map extremeBytes).flatten)
    ++ orZeros 48 r.charge chargePart

/-- A CHARGE_REJECT record with its record index (R191). -/
def ChargeRecord.bytes (index : Nat) (c : ChargeRecord) : List Byte :=
  u8 0x02 ++ u8 c.daylight.num ++ u16 (bits [c.variant.isSome, c.tare.isSome, c.drift.isSome, c.accept.isSome])
    ++ u32 index ++ u32 c.number ++ u8 c.slot.num ++ u16 c.version ++ orZeros 1 c.variant (fun v => u8 v.num)
    ++ orZeros 1 c.reason (fun r => u8 r.code) ++ u8 c.pieces.length ++ u8 c.wrongCount
    ++ u8 (bits [c.start.set, stampSet c.accept, stampSet c.expiry, stampSet c.rejectTime])
    ++ pieceBytes c.pieces ++ totalsBytes c
    ++ u32 c.start.value ++ stampTime c.accept ++ stampTime c.expiry ++ stampTime c.rejectTime

/-- A HEAT_TRIP record with its record index (R191). -/
def HeatTrip.bytes (index : Nat) (h : HeatTrip) : List Byte :=
  let value : Option Nat := match h.value with
    | .valid t => some t
    | .invalid _ => none
  let cause : Nat := match h.value with
    | .invalid .overrange => 1
    | _ => 0
  let place (d : Option TripDaylight) : List Byte := orZeros 2 d (fun d => u8 d.daylight.num ++ u8 d.state.code)
  let shot (d : Option TripDaylight) : Option Nat := d.bind (·.shot)
  u8 0x03 ++ u8 h.zone.num
    ++ u16 (bits [value.isSome, h.setpoint.isSome, h.overBand.isSome, h.below.isSome, h.above.isSome,
      (shot h.below).isSome, (shot h.above).isSome])
    ++ u32 index ++ u8 h.source.code ++ u8 cause ++ orZeros 2 value u16 ++ orZeros 2 h.setpoint u16
    ++ orZeros 2 h.overBand u16 ++ u32 h.time.value ++ flag h.time.set ++ place h.below ++ place h.above ++ zeros 3
    ++ orZeros 4 (shot h.below) u32 ++ orZeros 4 (shot h.above) u32

/-- The 128 bytes of a history record with its record index. -/
def HistRecord.bytes (index : Nat) : HistRecord → List Byte
  | .shot r => sealSlot (r.bytes index)
  | .chargeReject c => sealSlot (c.bytes index)
  | .heatTrip h => sealSlot (h.bytes index)

/-! ## What a step that did not end well leaves (log 8, 9) -/

/-- `count` free bytes of the `n`-th free area, from an offset on. -/
def freeBytes (n offset count : Nat) : List Byte := (List.range count).map (fun i => Config.freeByte n (offset + i))

/-- A slot whose program was cut short by a device reset is torn (R165): free bytes with a check word that does not
match. -/
def tornSlot (n : Nat) : List Byte :=
  let body := freeBytes n 0 126
  match crcBytes body with
  | lo :: rest => body ++ (lo ^^^ 1#8) :: rest
  | [] => body

/-- A slot whose program failed (R169): free bytes. -/
def Flash.failProgram (n sector slot : Nat) (f : Flash) : Flash :=
  f.program sector slot (freeBytes n 0 Config.slotBytes)

/-- A sector whose erase failed (R169): free bytes. -/
def Flash.failErase (n sector : Nat) (f : Flash) : Flash :=
  { f with cells := writeRange (sectorAddress sector) (freeBytes n 0 Config.sectorBytes) f.cells }

/-- A sector whose erase was cut short by a device reset (R165): free bytes, its header lost. -/
def Flash.cutErase (n sector : Nat) (f : Flash) : Flash := (f.failErase n sector).program sector 0 (tornSlot n)

end Sys2Proof.Machine
end

