-- ==== Sys2Proof/Machine/Recipes.lean ====
section
/-! DEFINITION. Recipes and stored settings (chapter 10): the recipe record's bytes (R192) with its structural checks and
clamps (R146), writing, activating and clearing recipes, the snapshot and the loading of the settings image. -/

namespace Sys2Proof.Machine

/-! ## The record as bytes (R192) -/

/-- The offset of a variant's 25 bytes. -/
def variantOffset : Variant → Nat
  | .v1 => 46 | .v2 => 71 | .v3 => 96

/-- Bit v − 1 of the enabled-variant byte. -/
def enabledBit (bytes : List Byte) (v : Variant) : Bool := (byteAt bytes 45).testBit (v.num - 1)

/-- One variant as written, with at most its first eight pieces (R192). -/
def readVariant (bytes : List Byte) (v : Variant) : VariantSpec :=
  let base := variantOffset v
  { enabled := enabledBit bytes v
    pieces := (List.range (min 8 (byteAt bytes base))).map (fun i =>
      { nominal := field bytes (base + 1 + 3 * i) 2, tolerance := byteAt bytes (base + 3 + 3 * i) }) }

/-- A record as written, before any clamp (R192). -/
def readRecipe (bytes : List Byte) : Recipe :=
  let word (offset : Nat) : Nat := field bytes offset 2
  { name := bytes.take 8
    heat :=
      { platen := ⟨word 8, word 10, word 12, word 14, word 16⟩
        bias := Ten.tabulate (fun z => signedField bytes (18 + z.num) 1), readyBand := word 28, overBand := word 30 }
    cure := { tref := word 32, step := word 34, tmin := word 36, target := word 38, dwell := word 40, limit := word 42 }
    eject := byteAt bytes 44
    layup :=
      { variants := ⟨readVariant bytes .v1, readVariant bytes .v2, readVariant bytes .v3⟩, threshold := word 121
        bandMin := field bytes 123 4, bandMax := field bytes 127 4, driftLimit := word 131, gapLimit := byteAt bytes 133
        recoveryLimit := byteAt bytes 134, life := word 135, prefixHold := byteAt bytes 137 == 1 } }

/-- The piece count of an enabled variant is 1 to 8 (R146, R192). -/
def pieceCountSound (bytes : List Byte) (v : Variant) : Bool :=
  let count := byteAt bytes (variantOffset v)
  !enabledBit bytes v || decide (1 ≤ count ∧ count ≤ 8)

/-- The structural checks of R146 on the bytes of a record (R192). -/
def structureSound (bytes : List Byte) : Bool :=
  (bytes.take 8).all (fun c => decide (0x20 ≤ c.toNat ∧ c.toNat ≤ 0x7E))
    && decide (1 ≤ byteAt bytes 45 ∧ byteAt bytes 45 ≤ 7)
    && Variant.all.all (pieceCountSound bytes)
    && decide (field bytes 123 4 ≤ field bytes 127 4)
    && decide (byteAt bytes 137 ≤ 1)

/-! ## The clamps (R146, R113) -/

def PieceSpec.clamp (p : PieceSpec) : PieceSpec :=
  { nominal := clampNat 10 30000 p.nominal, tolerance := clampNat 1 255 p.tolerance }

def VariantSpec.clamp (v : VariantSpec) : VariantSpec := { v with pieces := v.pieces.map PieceSpec.clamp }

def HeatFields.clamp (h : HeatFields) : HeatFields :=
  { platen := h.platen.map (clampNat 0 3000), bias := h.bias.map (clampInt (-100) 100)
    readyBand := clampNat 0 200 h.readyBand, overBand := clampNat 50 500 h.overBand }

/-- The cure fields clamped; Tmin after Tref, to 0 to the clamped Tref (R146). -/
def CureFields.clamp (c : CureFields) : CureFields :=
  let tref := clampNat 1000 2500 c.tref
  { tref := tref, step := clampNat 20 400 c.step, tmin := clampNat 0 tref c.tmin, target := clampNat 1 65535 c.target
    dwell := clampNat 0 65535 c.dwell, limit := clampNat 0 600 c.limit }

def LayupFields.clamp (l : LayupFields) : LayupFields :=
  { l with
    variants := l.variants.map VariantSpec.clamp, threshold := clampNat 10 5000 l.threshold
    bandMin := clampNat 10 240000 l.bandMin, bandMax := clampNat 10 240000 l.bandMax
    driftLimit := clampNat 0 1000 l.driftLimit, gapLimit := clampNat 1 60 l.gapLimit
    recoveryLimit := clampNat 5 120 l.recoveryLimit, life := clampNat 60 7200 l.life }

/-- Every numeric field clamped to its range (R146). -/
def Recipe.clamp (r : Recipe) : Recipe :=
  { name := r.name, heat := r.heat.clamp, cure := r.cure.clamp, eject := clampNat 1 20 r.eject, layup := r.layup.clamp }

/-- A clamp changed a field of the record, or cut the piece count of a variant that is not enabled (log 34). -/
def recipeClamped (bytes : List Byte) : Bool :=
  (readRecipe bytes).clamp != readRecipe bytes
    || Variant.all.any (fun v => decide (8 < byteAt bytes (variantOffset v)))

/-- The record that bytes give: none where a structural check fails (R146). -/
def parseRecipe (bytes : List Byte) : Option Recipe :=
  if structureSound bytes then some (readRecipe bytes).clamp else none

/-! ## A record to bytes (R192) -/

/-- The 25 bytes of a variant; bytes of pieces beyond the count are 0x00 (log 34). -/
def VariantSpec.bytes (v : VariantSpec) : List Byte :=
  u8 v.pieces.length ++ (v.pieces.map (fun p => u16 p.nominal ++ u8 p.tolerance)).flatten
    ++ zeros (3 * (8 - v.pieces.length))

/-- The 138 bytes of a record. -/
def Recipe.bytes (r : Recipe) : List Byte :=
  let enabled := maskOf (fun v => v.num - 1) (Variant.all.filter (fun v => (r.layup.variant v).enabled))
  r.name ++ (r.heat.platen.toList.map u16).flatten ++ (r.heat.bias.toList.map s8).flatten
    ++ u16 r.heat.readyBand ++ u16 r.heat.overBand
    ++ u16 r.cure.tref ++ u16 r.cure.step ++ u16 r.cure.tmin ++ u16 r.cure.target ++ u16 r.cure.dwell ++ u16 r.cure.limit
    ++ u8 r.eject ++ u8 enabled
    ++ (Variant.all.map (fun v => (r.layup.variant v).bytes)).flatten
    ++ u16 r.layup.threshold ++ u32 r.layup.bandMin ++ u32 r.layup.bandMax ++ u16 r.layup.driftLimit
    ++ u8 r.layup.gapLimit ++ u8 r.layup.recoveryLimit ++ u16 r.layup.life ++ flag r.layup.prefixHold

/-! ## Writing, activating, clearing (R148, R151, R152) -/

/-- The detail word of a write (R182). -/
inductive Placed | stored | applied | pending
deriving DecidableEq, Repr

/-- The code of a detail word (R182). -/
def Placed.code : Placed → Nat
  | .stored => 0 | .applied => 1 | .pending => 2

/-- Where an accepted record goes (R148). -/
def State.writeRecipe (k : RecipeSlot) (apply : ApplyPoint) (r : Recipe) (s : State) : State × Placed :=
  if s.recipes.active ≠ some k then ((s.putRecipe k r).settingsChanged, .stored)
  else if s.cellIdle then (((s.putRecipe k r).settingsChanged).raise .recipeApplied, .applied)
  else
    ({ s with recipes := { s.recipes with copy := some { record := r, apply := apply, heatApplied := false } } }, .pending)

/-- The checks of a recipe write and its acceptance (R146, R148). -/
def recipeWriteBody (payload : List Byte) (k : RecipeSlot) (s : State) : Reply :=
  let bytes := payload.drop 2
  match applyPointOf (byteAt payload 1), parseRecipe bytes with
  | some apply, some r =>
    let (s1, placed) := s.writeRecipe k apply r
    (s1, ⟨okOrClamped (recipeClamped bytes), placed.code, []⟩)
  | _, _ => refuse .badValue 0 s

/-- RECIPE_WRITE (R148). -/
def execRecipeWrite (p : Port) (payload : List Byte) (s : State) : Outcome :=
  .next (s.request Summary.recipeWrite p payload (onRecipeSlot payload (recipeWriteBody payload)))

/-- An activation applies at once when the cell is idle, and is the pending selection otherwise (R151). -/
def State.select (choice : Option RecipeSlot) (s : State) : Reply :=
  if s.cellIdle then
    (((s.activate choice).settingsChanged).raise .recipeApplied, ⟨.ok, Placed.applied.code, []⟩)
  else
    ({ s with recipes := { s.recipes with selection := some choice } }, ⟨.ok, Placed.pending.code, []⟩)

/-- The checks of an activation of a slot (R151). -/
def activateSlotBody (k : RecipeSlot) (s : State) : Reply :=
  if (s.recipes.slots.get k).record.isNone then refuse .noRecipe 0 s else s.select (some k)

/-- RECIPE_ACTIVATE (R151): 0xFF names NO_RECIPE (R189). -/
def execRecipeActivate (p : Port) (payload : List Byte) (s : State) : Outcome :=
  .next (s.request Summary.recipeActivate p payload
    (if byteAt payload 0 = 0xFF then State.select none else onRecipeSlot payload activateSlotBody))

/-- The checks of a recipe clear (R152). -/
def recipeClearBody (k : RecipeSlot) (s : State) : Reply :=
  if s.recipes.active = some k ∨ s.recipes.selection = some (some k) then refuse .wrongState 0 s
  else if (s.recipes.slots.get k).record.isNone then refuse .nothing 0 s
  else accept .ok [] (s.modSlot k (fun c => { c with record := none })).settingsChanged

/-- RECIPE_CLEAR (R152). -/
def execRecipeClear (p : Port) (payload : List Byte) (s : State) : Outcome :=
  .next (s.request Summary.recipeClear p payload (onRecipeSlot payload recipeClearBody))

/-! ## The settings image (R155) -/

/-- The values of the settings in force in their stored form (R155), with a ring size and the two bases. -/
def State.imageWith (s : State) (ring : Option Nat) (shotBase seqBase : Nat) : SettingsImage :=
  { records := s.recipes.slots.map (fun c => c.record.map Recipe.bytes), versions := s.recipes.slots.map (·.version)
    active := s.recipes.active, kp := s.zones.map (·.kp), ki := s.zones.map (·.ki)
    weight := s.zones.map ZoneControl.nextWeight, trim := s.channels.map (·.trim)
    openKind := s.trips.map (·.openTrip.kind), overKind := s.trips.map (·.overTrip.kind)
    budget := s.budget.next, window := s.window.pending.getD s.window.length, band := s.weigh.band, zero := s.weigh.zero
    span := s.weigh.span, slotCount := s.arbiter.count, permitTime := s.board.permitTime
    ringSize := ring, shotBase := shotBase, seqBase := seqBase }

/-- The snapshot of a settings save (R157): ring size and bases as last stored by a format (R155). -/
def State.snapshot (s : State) : SettingsImage :=
  s.imageWith s.history.storedRing s.history.shotBase s.history.seqBase

/-- The image of the default settings (R158). -/
def defaultImage : SettingsImage :=
  { records := .all none, versions := .all 0, active := none, kp := .all 32, ki := .all 4, weight := .all 10
    trim := .all 0, openKind := .all .latch, overKind := .all .cycle, budget := 150000, window := 4, band := 5, zero := 0
    span := 500, slotCount := 2, permitTime := 30, ringSize := none, shotBase := 1, seqBase := 0 }

/-- The values of an image as they are delivered to the blocks (R158): numbers clamped to their ranges. -/
def SettingsImage.clamp (i : SettingsImage) : SettingsImage :=
  { i with
    versions := i.versions.map (clampNat 0 65535), kp := i.kp.map (clampNat 0 255), ki := i.ki.map (clampNat 0 255)
    weight := i.weight.map (clampNat 1 15), trim := i.trim.map (clampInt (-8) 7), budget := clampNat 0 150000 i.budget
    window := clampNat 2 30 i.window, band := clampNat 1 255 i.band, zero := clampInt (-8388608) 8388607 i.zero
    span := clampNat 1 65535 i.span, slotCount := clampNat 1 4 i.slotCount, permitTime := clampNat 5 120 i.permitTime
    ringSize := i.ringSize.map (clampNat 2 255), shotBase := clampNat 0 Config.max32 i.shotBase
    seqBase := clampNat 0 Config.maxSequence i.seqBase }

/-- The recipe slots an image gives (R158): a record that fails the structural checks loads as an empty slot. -/
def SettingsImage.slots (i : SettingsImage) : Eight SlotContent :=
  let content (k : RecipeSlot) : SlotContent :=
    { record := (i.records.get k).bind parseRecipe, version := i.versions.get k }
  ⟨content .s0, content .s1, content .s2, content .s3, content .s4, content .s5, content .s6, content .s7⟩

/-- The active slot an image gives (R158): one that names an empty slot loads as none. -/
def SettingsImage.activeSlot (i : SettingsImage) : Option RecipeSlot :=
  i.active.filter (fun k => (i.slots.get k).record.isSome)

end Sys2Proof.Machine
end

