-- ==== Sys2Proof/Machine/History.lean ====
section
/-! DEFINITION. History (chapter 11) and the settings save (R157): the Memory Link's choice and the steps of its operations,
failures, the history format, history reads, the drain. -/

namespace Sys2Proof.Machine

/-! ## The link -/

/-- An operation's next flash step, with the time limit of a single step (R166). -/
def State.linkStep (op : LinkOp) (left : Option Nat) (s : State) : State :=
  { s with link := { s.link with op := some op, left := left } }

/-- The operation in progress ends: the link is idle. -/
def State.linkIdle (s : State) : State := { s with link := { s.link with op := none, left := none } }

def State.modHistory (f : History → History) (s : State) : State := { s with history := f s.history }

def State.modFlash (f : Flash → Flash) (s : State) : State := { s with flash := f s.flash }

/-- The ring in use, 0 with none (which no flush or read meets). -/
def History.ring (h : History) : Nat := h.ringSize.getD 0

/-! ## Results of a settings save and of a format (R157, R172) -/

/-- A settings save ends with a result (R157). -/
def State.endSave (status : Status) (s : State) : State :=
  match s.recipes.save with
  | none => s
  | some r =>
    let data := if status = .ok then flag s.recipes.changed else []
    State.deliver r.port r.op status data
      { s with recipes := { s.recipes with save := none, lastSave := some status } }

/-- The codes of the fault causes, in the order of R163. -/
def FaultCause.code : FaultCause → Nat
  | .programTimeout => 0 | .eraseTimeout => 1 | .verify => 2 | .sequenceLimit => 3

/-- A history format ends with a result (R172). -/
def State.endFormat (status : Status) (data : List Byte) (s : State) : State :=
  match s.history.format with
  | none => s
  | some f => State.deliver f.port f.op status data (s.modHistory (fun h => { h with format := none }))

/-! ## Failure (R169) -/

/-- The memory enters FAULT with a cause: HISTORY_FAULT is raised when its condition begins, and a settings save that waits
for the link ends with MEMORY_FAULT. -/
def State.enterFault (cause : FaultCause) (s : State) : State :=
  let s1 := s.modHistory (fun h => { h with memory := .fault, cause := some cause })
  let s2 := s1.raiseOnset .historyFault s.history.memory.faulty true
  if s2.recipes.save.any (fun r => !r.granted) then s2.endSave .memoryFault else s2

/-- A flush or a settings save fails: the memory enters FAULT, or stays FORMATTING when a history format has been accepted
meanwhile (R169). -/
def State.failUnlessFormatting (cause : FaultCause) (s : State) : State :=
  if s.history.memory = .formatting then s else s.enterFault cause

/-- The operation in progress fails (R169): the link is idle, a settings save or a format ends with MEMORY_FAULT. -/
def State.failOp (op : LinkOp) (cause : FaultCause) (s : State) : State :=
  let s1 := s.linkIdle
  match op with
  | .settingsErase _ | .settingsProgram _ => (s1.failUnlessFormatting cause).endSave .memoryFault
  | .format _ => (s1.enterFault cause).endFormat .memoryFault (u8 cause.code)
  | _ => s1.failUnlessFormatting cause

/-- What the failed step of an operation leaves in the flash (R157, R169, log 8): free bytes, or no valid image. -/
def failedFlash (op : LinkOp) (h : History) (n : Nat) (f : Flash) : Flash :=
  match op with
  | .flushProgram => f.failProgram n (sectorOf h.ring h.head) h.writeSlot
  | .sectorErase seq => f.failErase n (sectorOf h.ring seq)
  | .sectorHeader seq => f.failProgram n (sectorOf h.ring seq) 0
  | .portRead _ _ => f
  | .settingsErase _ | .settingsProgram _ | .format (.settingsErase _) | .format (.settingsProgram _) =>
    { f with settings := .partialImage }
  | .format (.ringErase k) => f.failErase n k
  | .format .header => f.failProgram n (sectorOf (h.format.elim 0 (·.size)) (h.format.elim 0 (·.first))) 0

/-- A flash step of the operation in progress fails with a cause. -/
def State.failStep (op : LinkOp) (cause : FaultCause) (s : State) : State :=
  State.failOp op cause { s.modFlash (failedFlash op s.history s.free) with free := s.free + 1 }

/-- A program with its read-back, or an image with its verification, that did not compare equal fails with VERIFY. -/
def State.verified (equal : Bool) (op : LinkOp) (next : State → State) (s : State) : State :=
  if equal then next s else s.failStep op .verify

/-! ## The arbiter's choice (R161, R166) -/

/-- The next port after the one served last, in the order 1, 2, 3, 1. -/
def portAfter : Port → Port
  | .p1 => .p2 | .p2 => .p3 | .p3 => .p1

/-- The port of the port read the arbiter would choose: the first with a waiting read after the port served last. -/
def State.nextReader (s : State) : Option Port :=
  let a := portAfter s.link.lastPort
  [a, portAfter a, portAfter (portAfter a)].find? (fun p => (s.port p).read == .waiting)

/-- A flush is a candidate (R166). -/
def State.flushReady (s : State) : Bool := s.history.memory == .ready && !s.commit.records.isEmpty

/-- A port read goes before a flush when both are candidates (R161). -/
def State.readFirst (s : State) : Bool :=
  match urgency s.depth with
  | .idle | .lazy => true
  | .steady => !s.link.lastRead
  | .pressing => false

/-- Every port's waiting read and fetched answer becomes FORMATTED, and every cursor invalid (R171); its value stays (DESIGN
CHOICE, log 7). -/
def PortState.formatted (q : PortState) : PortState :=
  { q with cursorValid := false, read := if q.read = .idle then .idle else .fetched .formatted }

/-- The image a format programs (R171 step 2), and whether it is built from a snapshot. -/
def State.formatImage (f : FormatRequest) (s : State) : SettingsImage × Bool :=
  match s.flash.settings with
  | .image i => ({ i with ringSize := some f.size, shotBase := s.board.nextShot, seqBase := f.first }, false)
  | _ => (s.imageWith (some f.size) s.board.nextShot f.first, true)

/-- A history format is granted the link (R171). -/
def State.grantFormat (f : FormatRequest) (s : State) : State :=
  let (image, built) := s.formatImage f
  let s1 := { s with ports := s.ports.map PortState.formatted }
  let s2 := s1.modHistory (fun h => { h with format := some { f with granted := true, built := built } })
  let s3 := { s2 with recipes := { s2.recipes with changed := s2.recipes.changed && !built } }
  s3.linkStep (.format (.settingsErase image)) (some Config.eraseLimitMs)

/-- A settings save is granted the link (R157 steps 1 and 2): the snapshot is taken and SETTINGS_CHANGED cleared. -/
def State.grantSave (r : SaveRequest) (s : State) : State :=
  let s1 := { s with recipes := { s.recipes with changed := false, save := some { r with granted := true } } }
  s1.linkStep (.settingsErase s.snapshot) (some Config.eraseLimitMs)

/-- The ring is full (R163): head − oldest + 1 equals N. -/
def History.full (h : History) : Bool := h.head - h.oldest + 1 == h.ring

/-- A flush is granted (R167, R168): the program of the queue head, or a sector entry when the head sector is full; a new
sequence past the last one fails at once with SEQUENCE_LIMIT. -/
def State.grantFlush (s : State) : State :=
  let s1 := { s with link := { s.link with lastRead := false } }
  if s.history.writeSlot < Config.sectorSlots then s1.linkStep .flushProgram (some Config.programLimitMs)
  else if s.history.head + 1 > Config.maxSequence then s1.failUnlessFormatting .sequenceLimit
  else
    let s2 := s1.modHistory (fun h => { h with oldest := if h.full then h.oldest + 1 else h.oldest })
    s2.linkStep (.sectorErase (s.history.head + 1)) (some Config.eraseLimitMs)

/-- A port read is granted (R166): the arbiter remembers the port and that its choice was a read. -/
def State.grantRead (p : Port) (s : State) : State :=
  State.linkStep (.portRead p false) none { s with link := { s.link with lastPort := p, lastRead := true } }

/-- The arbiter's choice between a flush and a port read (R166 step 3). -/
def State.chooseFlushOrRead (s : State) : State :=
  match s.flushReady, s.nextReader with
  | true, some p => if s.readFirst then s.grantRead p else s.grantFlush
  | true, none => s.grantFlush
  | false, some p => s.grantRead p
  | false, none => s

/-- The arbiter's choice on an idle link (R166). -/
def State.choose (s : State) : State :=
  match s.history.format, s.recipes.save with
  | some f, _ => s.grantFormat f
  | none, some r => s.grantSave r
  | none, none => s.chooseFlushOrRead

/-- LINK_ARBITRATION (R166): one choice, when the link is idle. -/
def execLinkArbitration (s : State) : Outcome := .next (if s.link.op.isNone then s.choose else s)

/-! ## Steps of a flush (R167, R168): an event that does not match the operation in progress has no effect (log 33) -/

/-- The program of the queue head compared equal (R167): the record is in its slot and leaves the queue, the write slot
rises, and an offer pass follows. -/
def State.recordWritten (s : State) : State :=
  match s.commit.records with
  | [] => s.linkIdle
  | r :: rest =>
    let h := s.history
    let s1 := s.linkIdle.modFlash (Flash.program (sectorOf h.ring h.head) h.writeSlot (r.bytes h.nextIndex))
    let s2 := s1.modHistory (fun h => { h with writeSlot := h.writeSlot + 1 })
    State.settleBoard s { s2 with commit := { s2.commit with records := rest } }

/-- FLUSH_PROGRAM_DONE (R167). -/
def execFlushProgramDone (equal : Bool) (s : State) : Outcome :=
  .next
    (match s.link.op with
    | some .flushProgram => s.verified equal .flushProgram State.recordWritten
    | _ => s)

/-- SECTOR_ERASE_DONE (R168): the sector is erased and its header is programmed. -/
def execSectorEraseDone (s : State) : Outcome :=
  .next
    (match s.link.op with
    | some (.sectorErase seq) =>
      (s.modFlash (Flash.erase (sectorOf s.history.ring seq))).linkStep (.sectorHeader seq) (some Config.programLimitMs)
    | _ => s)

/-- The header of a sector entry compared equal (R168): the head is the new sequence, the write slot 1. -/
def State.sectorEntered (seq : Nat) (s : State) : State :=
  let h := s.history
  let s1 := s.linkIdle.modFlash (Flash.program (sectorOf h.ring seq) 0 (headerBytes h.ring seq h.firstSeq))
  s1.modHistory (fun h => { h with head := seq, writeSlot := 1 })

/-- SECTOR_HEADER_DONE (R168). -/
def execSectorHeaderDone (equal : Bool) (s : State) : Outcome :=
  .next
    (match s.link.op with
    | some (.sectorHeader seq) => s.verified equal (.sectorHeader seq) (State.sectorEntered seq)
    | _ => s)

/-! ## Steps of a settings save (R157) -/

def State.setSettings (x : SettingsSector) (s : State) : State := s.modFlash (fun f => { f with settings := x })

/-- SETTINGS_ERASE_DONE (R157 step 2): sector 0 is blank and the image is programmed. -/
def execSettingsEraseDone (s : State) : Outcome :=
  .next
    (match s.link.op with
    | some (.settingsErase image) => (s.setSettings .blank).linkStep (.settingsProgram image) none
    | _ => s)

/-- SETTINGS_SAVE_DONE (R157 steps 3 and 4). -/
def execSettingsSaveDone (equal : Bool) (s : State) : Outcome :=
  .next
    (match s.link.op with
    | some (.settingsProgram image) =>
      s.verified equal (.settingsProgram image) (fun s => (s.linkIdle.setSettings (.image image)).endSave .ok)
    | _ => s)

/-! ## Steps of a history format (R171, R172) -/

/-- The first header compared equal (R172): the descriptor of the new ring, READY, the result. -/
def State.formatDone (f : FormatRequest) (s : State) : State :=
  let s1 := s.linkIdle.modFlash (Flash.program (sectorOf f.size f.first) 0 (headerBytes f.size f.first f.first))
  let s2 := s1.modHistory (fun h =>
    { h with
      memory := .ready, cause := none, ringSize := some f.size, ringHeld := true, firstSeq := f.first
      oldest := f.first, head := f.first, writeSlot := 1, torn := 0 })
  s2.endFormat (okOrClamped f.clamped) (u16 f.size ++ u32 f.first ++ u32 s.history.shotBase)

/-- The image of a format holds another ring size or base than those stored so far. -/
def History.storesNew (image : SettingsImage) (h : History) : Bool :=
  image.ringSize != h.storedRing || image.shotBase != h.shotBase || image.seqBase != h.seqBase

/-- The image of a format compared equal (R171 step 2): the ring size and the bases are stored; ring sector 1 is erased
next. A value that changes sets SETTINGS_CHANGED (R155), unless the image is itself the snapshot that cleared it (R171;
DEDUCED, log 43). -/
def State.formatStored (f : FormatRequest) (image : SettingsImage) (s : State) : State :=
  let s1 := s.setSettings (.image image)
  let s2 := if !f.built && s.history.storesNew image then s1.settingsChanged else s1
  let s3 := s2.modHistory (fun h =>
    { h with storedRing := image.ringSize, shotBase := image.shotBase, seqBase := image.seqBase })
  s3.linkStep (.format (.ringErase 1)) (some Config.eraseLimitMs)

/-- One step of a format in progress ends (R171). -/
def State.formatStep (f : FormatRequest) (equal : Bool) (step : FormatStep) (s : State) : State :=
  match step with
  | .settingsErase image => (s.setSettings .blank).linkStep (.format (.settingsProgram image)) none
  | .settingsProgram image => s.verified equal (.format step) (State.formatStored f image)
  | .ringErase k =>
    let s1 := s.modFlash (Flash.erase k)
    if k < f.size then s1.linkStep (.format (.ringErase (k + 1))) (some Config.eraseLimitMs)
    else s1.linkStep (.format .header) (some Config.programLimitMs)
  | .header => s.verified equal (.format step) (State.formatDone f)

/-- FORMAT_STEP_DONE (R171, R172). -/
def execFormatStepDone (equal : Bool) (s : State) : Outcome :=
  .next
    (match s.link.op, s.history.format with
    | some (.format step), some f => s.formatStep f equal step
    | _, _ => s)

/-! ## A step past its limit (R169) -/

/-- The cause of a step that runs past its limit; none for a port read, which has no limit. -/
def LinkOp.timeoutCause : LinkOp → Option FaultCause
  | .flushProgram | .sectorHeader _ | .settingsProgram _ | .format (.settingsProgram _) | .format .header =>
    some .programTimeout
  | .sectorErase _ | .settingsErase _ | .format (.settingsErase _) | .format (.ringErase _) => some .eraseTimeout
  | .portRead _ _ => none

/-- FLASH_STEP_TIMEOUT (R169). -/
def execFlashStepTimeout (s : State) : Outcome :=
  .next
    (match s.link.op with
    | some op => op.timeoutCause.elim s (fun cause => s.failStep op cause)
    | none => s)

/-! ## History reads (R174 to R176) -/

/-- The bytes of the slot of a record index (R162). -/
def State.slotOfIndex (s : State) (index : Nat) : List Byte :=
  let seq := index / Config.recordSlots
  s.flash.slot (sectorOf s.history.ring seq) (index % Config.recordSlots + 1)

/-- The search of a served read: at most `n` slots from an index on, with the slots skipped so far; the answer and the
cursor after it (R175). -/
def State.searchRecord : Nat → Nat → Nat → State → ReadAnswer × Nat
  | 0, index, skipped, _ => (.ended skipped, index)
  | n + 1, index, skipped, s =>
    let bytes := s.slotOfIndex index
    if slotValid bytes then (.record bytes skipped, index + 1) else State.searchRecord n (index + 1) (skipped + 1) s

/-- The answer of a granted read, with the cursor after it (R175). -/
def State.serveRead (p : Port) (s : State) : ReadAnswer × Nat :=
  let cursor := (s.port p).cursor
  let oldest := s.history.oldestIndex
  if cursor < oldest then (.erased oldest, oldest)
  else
    let next := s.history.nextIndex
    if cursor < next then s.searchRecord (next - cursor) cursor 0 else (.ended 0, next)

/-- PORT_READ_DONE (R175): the answer is fetched and the cursor moved, or the answer is discarded (R174). -/
def execPortReadDone (s : State) : Outcome :=
  .next
    (match s.link.op with
    | some (.portRead p discard) =>
      if discard then s.linkIdle
      else
        let (answer, cursor) := s.serveRead p
        s.linkIdle.modPort p (fun q => { q with read := .fetched answer, cursor := cursor })
    | _ => s)

/-- A read of the port being served completes with its answer discarded (R174). -/
def State.discardServed (p : Port) (s : State) : State :=
  match s.link.op with
  | some (.portRead q _) => if q = p then { s with link := { s.link with op := some (.portRead p true) } } else s
  | _ => s

/-- The refusal of a history read by the memory state (R163). -/
def MemoryState.readRefusal : MemoryState → Option Status
  | .absent => some .noMemory
  | .unformatted => some .wrongState
  | .formatting => some .busy
  | .ready | .fault => none

/-- The cursor that NEWEST n gives (R174). -/
def History.newest (h : History) (n : Nat) : Nat :=
  if h.oldestIndex + n + 1 ≤ h.nextIndex then h.nextIndex - 1 - n else h.oldestIndex

/-- The forms of a history open (R189). -/
inductive OpenForm | index | oldest | newest
deriving DecidableEq, Repr

def openFormOf : Nat → Option OpenForm
  | 0 => some .index
  | 1 => some .oldest
  | 2 => some .newest
  | _ => none

/-- A history open (R174). -/
def historyOpenBody (p : Port) (payload : List Byte) (s : State) : Reply :=
  let value := field payload 1 4
  match openFormOf (byteAt payload 0), s.history.memory.readRefusal with
  | none, _ => refuse .badValue 0 s
  | some _, some status => refuse status 0 s
  | some form, none =>
    let clamped := form == .newest && decide (65535 < value)
    let cursor := match form with
      | .index => value
      | .oldest => s.history.oldestIndex
      | .newest => s.history.newest (min 65535 value)
    let s1 := (s.discardServed p).modPort p (fun q => { q with cursor := cursor, cursorValid := true, read := .idle })
    accept (okOrClamped clamped) (u32 cursor ++ u32 s.history.oldestIndex ++ u32 s.history.nextIndex) s1

/-- HISTORY_OPEN (R174). -/
def execHistoryOpen (p : Port) (payload : List Byte) (s : State) : Outcome :=
  .next (s.request Summary.historyOpen p payload (historyOpenBody p payload))

/-- The response that carries a read's answer (R190). -/
def ReadAnswer.response : ReadAnswer → Response
  | .record bytes skipped => ⟨.ok, 0, bytes ++ u32 skipped⟩
  | .ended skipped => ⟨.ended, 0, u32 skipped⟩
  | .erased oldest => ⟨.erased, 0, u32 oldest⟩
  | .formatted => ⟨.formatted, 0, []⟩

/-- Steps 2 to 7 of a history next (R175). -/
def State.lineUpRead (p : Port) (s : State) : Reply :=
  let q := s.port p
  if !q.cursorValid then refuse .noCursor 0 s
  else
    match s.history.memory.readRefusal with
    | some status => refuse status 0 s
    | none =>
      if q.read = .waiting then accept .pending [] s
      else if s.history.nextIndex ≤ q.cursor then (s, (ReadAnswer.ended 0).response)
      else if q.cursor < s.history.oldestIndex then
        (s.modPort p (fun q => { q with cursor := s.history.oldestIndex }),
          (ReadAnswer.erased s.history.oldestIndex).response)
      else accept .pending [] (s.modPort p (fun q => { q with read := .waiting }))

/-- A history next (R175). -/
def historyNextBody (p : Port) (s : State) : Reply :=
  match (s.port p).read with
  | .fetched answer => (s.modPort p (fun q => { q with read := .idle }), answer.response)
  | _ => s.lineUpRead p

/-- HISTORY_NEXT (R175). -/
def execHistoryNext (p : Port) (payload : List Byte) (s : State) : Outcome :=
  .next (s.request Summary.historyNext p payload (historyNextBody p))

/-! ## Settings save and history format requests (R157, R170) -/

/-- The checks of a settings save, in order, and its acceptance (R157). -/
def settingsSaveBody (p : Port) (s : State) : Reply :=
  if (s.port p).slot.isRunning then refuse .busy 0 s
  else if s.recipes.save.isSome then refuse .busy 0 s
  else if s.history.memory = .absent then refuse .noMemory 0 s
  else if s.history.memory = .fault then refuse .wrongState 0 s
  else
    let r : SaveRequest := { port := p, op := s.nextOp, granted := false }
    accept .inProgress [] (State.startOp p .settingsSave { s with recipes := { s.recipes with save := some r } })

/-- SETTINGS_SAVE (R157). -/
def execSettingsSave (p : Port) (payload : List Byte) (s : State) : Outcome :=
  .next (s.request Summary.settingsSave p payload (settingsSaveBody p))

/-- The first sequence of a format (R171 step 1). -/
def History.firstSequence (h : History) : Nat := max h.seqBase (if h.ringHeld then h.head + 1 else 0)

/-- The checks of a history format, in order, and its acceptance (R170). -/
def historyFormatBody (p : Port) (payload : List Byte) (s : State) : Reply :=
  let written := field payload 0 2
  let size := min (clampNat 2 255 written) (s.history.sectors - 1)
  if (s.port p).slot.isRunning then refuse .busy 0 s
  else if s.history.memory = .absent then refuse .noMemory 0 s
  else if s.history.memory = .formatting then refuse .busy 0 s
  else if s.history.firstSequence > Config.maxSequence then refuse .sequenceLimit 0 s
  else
    let r : FormatRequest :=
      { port := p, op := s.nextOp, size := size, clamped := size != written, first := s.history.firstSequence
        granted := false, built := false }
    accept .inProgress []
      (State.startOp p .historyFormat
        (s.modHistory (fun h => { h with memory := .formatting, cause := none, format := some r })))

/-- HISTORY_FORMAT (R170). -/
def execHistoryFormat (p : Port) (payload : List Byte) (s : State) : Outcome :=
  .next (s.request Summary.historyFormat p payload (historyFormatBody p payload))

/-! ## Drain (R173) -/

/-- A drain (R173): the queue head leaves with its index field 0xFFFFFFFF and the depth that remains; an offer pass
follows. -/
def drainBody (s : State) : Reply :=
  if s.history.memory = .ready ∨ s.history.memory = .formatting then refuse .wrongState 0 s
  else
    match s.commit.records with
    | [] => refuse .nothing 0 s
    | r :: rest =>
      accept .ok (r.bytes 0xFFFFFFFF ++ u8 rest.length)
        (State.settleBoard s { s with commit := { s.commit with records := rest } })

/-- DRAIN (R173). -/
def execDrain (p : Port) (payload : List Byte) (s : State) : Outcome :=
  .next (s.request Summary.drain p payload drainBody)

end Sys2Proof.Machine
end

