-- ==== Sys2Proof/Machine/Lines.lean ====
section
/-! DEFINITION. The Line Monitor (chapter 2): debounce, qualification, the pair rules, the press mode, line faults, the
heat hold, and the reports to the other blocks. -/

namespace Sys2Proof.Machine

/-! ## Interpretation (R25 to R30) -/

/-- The reset interpretation of a line (R23): HEAT_INHIBIT asserted, every other line deasserted. -/
def resetLevel : Line → Bool
  | .heatInhibit => true
  | _ => false

/-- The level a line is interpreted from: its debounced level, or the reset interpretation while it has none (R25). -/
def LineMonitor.source (m : LineMonitor) (l : Line) : Bool := (m.line.get l).debounced.getD (resetLevel l)

/-- The interpreted levels of a pair (R26, R27): a contradictory pair has both deasserted. -/
def pairLevel (own partner : Bool) : Bool := own && !partner

/-- The interpreted level of a line after qualification (R25 to R27). -/
def LineMonitor.interpreted (m : LineMonitor) : Line → Bool
  | .mouldClosed => pairLevel (m.source .mouldClosed) (m.source .mouldOpen)
  | .mouldOpen => pairLevel (m.source .mouldOpen) (m.source .mouldClosed)
  | .ejectFwd d => pairLevel (m.source (.ejectFwd d)) (m.source (.ejectHome d))
  | .ejectHome d => pairLevel (m.source (.ejectHome d)) (m.source (.ejectFwd d))
  | .heatInhibit => m.source .heatInhibit
  | .modeA => m.source .modeA
  | .modeB => m.source .modeB

/-- The press mode of the two mode lines (R28). -/
def decodeMode (a b : Bool) : Mode :=
  match a, b with
  | true, true => .run
  | false, true => .setup
  | false, false => .stop
  | true, false => .stop

/-- The line faults present in the debounced levels (R26 to R29). -/
def LineMonitor.faultsNow (m : LineMonitor) : LineFaults :=
  let pair (d : Daylight) : Bool := m.source (.ejectFwd d) && m.source (.ejectHome d)
  { modeIllegal := m.source .modeA && !m.source .modeB
    mouldPair := m.source .mouldClosed && m.source .mouldOpen
    ejectPair := ⟨pair .d1, pair .d2, pair .d3, pair .d4⟩ }

/-- The Line Monitor with its interpreted levels, mode, faults and heat hold recomputed from the debounced levels. -/
def LineMonitor.recompute (m : LineMonitor) : LineMonitor :=
  let level (l : Line) (x : LineState) : LineState := { x with level := m.interpreted l }
  let each (f : Daylight → Line) (xs : Four LineState) : Four LineState :=
    ⟨level (f .d1) xs.a1, level (f .d2) xs.a2, level (f .d3) xs.a3, level (f .d4) xs.a4⟩
  let mode := decodeMode (m.source .modeA) (m.source .modeB)
  { m with
    line :=
      { mouldClosed := level .mouldClosed m.line.mouldClosed, mouldOpen := level .mouldOpen m.line.mouldOpen
        ejectFwd := each .ejectFwd m.line.ejectFwd, ejectHome := each .ejectHome m.line.ejectHome
        heatInhibit := level .heatInhibit m.line.heatInhibit, modeA := level .modeA m.line.modeA
        modeB := level .modeB m.line.modeB }
    mode := mode
    faults := m.faultsNow
    hold := { stop := mode == .stop, inhibit := m.source .heatInhibit } }

/-! ## Reports (R26 to R30): each block acts on the changes of one recomputation in the order of chapter 2 (log 16) -/

/-- MOULD_CLOSED and MOULD_OPEN (R26): a deassertion of MOULD_CLOSED holds every CURING daylight with OPENED (R12); an
assertion of MOULD_OPEN starts sequences (R134), its deassertion aborts sequences and tests (R139, R142). -/
def State.reportMould (before : LineMonitor) (s : State) : State :=
  let was (l : Line) : Bool := (before.line.get l).level
  let s1 := if was .mouldClosed && !s.level .mouldClosed then s.holdCuring .opened else s
  if !was .mouldOpen && s1.level .mouldOpen then s1.startSequences
  else if was .mouldOpen && !s1.level .mouldOpen then s1.abortEjectors true true
  else s1

/-- EJECT_FWD and EJECT_HOME of one daylight (R27): an assertion reaches the ejector that waits for it. -/
def State.reportEjector (before : LineMonitor) (d : Daylight) (s : State) : State :=
  let rose (l : Line) : Bool := !(before.line.get l).level && s.level l
  let s1 := if rose (.ejectFwd d) then s.onFwd d else s
  if rose (.ejectHome d) then s1.onHome d else s1

/-- A mode change (R28): away from RUN rejects a charge in progress (R122), to STOP aborts sequences (R139), away from
SETUP aborts tests (R142), out of STOP starts sequences that wait for it (R134). -/
def State.reportMode (before : Mode) (s : State) : State :=
  let mode := s.lines.mode
  if mode = before then s
  else
    let s1 := if before = .run && s.builder.state != .idle then s.breakCharge .mode else s
    (s1.abortEjectors (mode == .stop) (before == .setup)).startSequences

/-- The onset of the heat hold (R30, R64): every window-cut flag is set and HEAT_HOLD is raised. -/
def State.reportHold (before : HoldReasons) (s : State) : State :=
  if s.heatHold && !before.inForce then
    State.raise .heatHold { s with window := { s.window with cut := .all true } }
  else s

/-- One recomputation of the Line Monitor after the qualification period, with its reports. -/
def State.recomputeLines (s : State) : State :=
  let before := s.lines
  let s1 := { s with lines := s.lines.recompute }
  let s2 := s1.reportHold before.hold
  let s3 := s2.raiseOnset .lineFault before.faults.any s2.lines.faults.any
  let s4 := (s3.reportMould before).each Daylight.all (State.reportEjector before)
  s4.reportMode before.mode

/-! ## Commands -/

def State.modLine (l : Line) (f : LineState → LineState) (s : State) : State :=
  { s with lines := { s.lines with line := s.lines.line.set l (f (s.lines.line.get l)) } }

/-- A raw level changes (R24): back to the debounced level it abandons the debounce interval, away from it, or while the
line has no debounced level, it starts the interval again. -/
def LineState.rawChange (asserted : Bool) (x : LineState) : LineState :=
  { x with raw := asserted, interval := if x.debounced = some asserted then none else some Config.debounceMs }

/-- RAW_LEVEL_CHANGE (R24); a level that the line already has is no change. -/
def execRawLevelChange (l : Line) (asserted : Bool) (s : State) : Outcome :=
  .next (if (s.lines.line.get l).raw = asserted then s else s.modLine l (LineState.rawChange asserted))

/-- The end of a running debounce interval: the debounced level takes the raw level (R24). -/
def LineState.settle (x : LineState) : LineState :=
  if x.interval.isSome then { x with debounced := some x.raw, interval := none } else x

/-- DEBOUNCED_LEVEL_CHANGE (R24): the lines whose intervals end at this moment take their debounced levels together; after
the qualification period one recomputation follows. A line with no interval running is not changed (log 14). -/
def execDebouncedLevelChange (expired : List Line) (s : State) : Outcome :=
  let changed := expired.any (fun l => (s.lines.line.get l).interval.isSome)
  let s1 := s.each expired (fun l s => s.modLine l LineState.settle)
  .next (if changed && s1.lines.qualify.isNone then s1.recomputeLines else s1)

/-- QUALIFICATION_EXPIRY (R25): the line monitor is QUALIFIED and everything is formed from the debounced levels. -/
def execQualificationExpiry (s : State) : Outcome :=
  .next
    (if s.lines.qualify.isSome then State.recomputeLines { s with lines := { s.lines with qualify := none } } else s)

end Sys2Proof.Machine
end

