-- ==== Sys2Proof/Machine/Ports.lean ====
section
/-! DEFINITION. Station ports (chapter 12): the transaction, statuses and the response frame, notices, the long-operation
slot, the clock, the port restart, the port status. -/

namespace Sys2Proof.Machine

/-! ## The response frame (R180, R182) -/

/-- The code of a status (R182). -/
def Status.code : Status → Nat
  | .ok => 0x00 | .okClamped => 0x01 | .inProgress => 0x02 | .pending => 0x03
  | .ended => 0x04 | .erased => 0x05 | .formatted => 0x06
  | .frameError => 0x10 | .unknownCommand => 0x11 | .denied => 0x12 | .badValue => 0x13 | .busy => 0x14
  | .wrongState => 0x20 | .nothing => 0x21 | .noCharge => 0x22 | .notReady => 0x23 | .mouldNotOpen => 0x24
  | .mouldNotClosed => 0x25 | .mode => 0x26 | .shotLimit => 0x27 | .notHome => 0x28 | .notCured => 0x29
  | .noRecipe => 0x2A | .queueFull => 0x2B | .duplicate => 0x2C | .budgetBelowFixed => 0x2D | .active => 0x2E
  | .none => 0x2F | .noMemory => 0x30 | .sequenceLimit => 0x31 | .noCursor => 0x32
  | .calRange => 0x40 | .memoryFault => 0x41

/-- Status, detail, payload length and payload: the bytes a response's CRC-8 covers (R180). -/
def Response.body (r : Response) : List Byte := u8 r.status.code ++ u8 r.detail ++ u16 r.payload.length ++ r.payload

/-- The bytes of a response in the order the device returns them (R180). -/
def Response.frame (r : Response) : List Byte := 0xA5#8 :: r.body ++ [crc8 r.body]

/-! ## The transaction (R180, R181, R188) -/

/-- CHIP_SELECT_ASSERT (R180): the port goes from IDLE to REQUEST. A chip select that is already asserted makes no
assertion (R188). -/
def execChipSelectAssert (p : Port) (s : State) : Outcome :=
  .next
    (if (s.port p).selected then s
    else s.modPort p (fun q => { q with selected := true, recv := .request, response := none, clocked := 0 }))

/-- Whether the response begins with the byte clocked now in WORKING: the 64th byte at the latest (R180). -/
def PortState.responds (begins : Bool) (q : PortState) : Bool := begins || decide (Config.responseWithin ≤ q.clocked + 1)

/-- One byte clocked by the station (R180): the first byte of the response makes a WORKING port RESPONSE, its last byte makes
it AFTER. `clocked` counts the bytes of WORKING and then those of the response. In every other receive state a byte clocked
changes nothing. -/
def PortState.clockByte (begins : Bool) (q : PortState) : PortState :=
  match q.recv, q.response with
  | .working, some _ =>
    if q.responds begins then { q with recv := .response, clocked := 1 } else { q with clocked := q.clocked + 1 }
  | .response, some r =>
    { q with recv := if r.frame.length ≤ q.clocked + 1 then .after else .response, clocked := q.clocked + 1 }
  | _, _ => q

/-- The byte that the device returns for it (R180): 0x00 in REQUEST and WORKING, the bytes of the response in RESPONSE, 0xFF
in AFTER; none in IDLE, where no transaction is. -/
def PortState.returned (begins : Bool) (q : PortState) : Option Byte :=
  match q.recv, q.response with
  | .idle, _ => none
  | .request, _ => some 0x00#8
  | .working, some r => if q.responds begins then r.frame.head? else some 0x00#8
  | .working, none => some 0x00#8
  | .response, some r => r.frame[q.clocked]?
  | .response, none => none
  | .after, _ => some 0xFF#8

/-- The bytes clocked in one millisecond: how many they are, and with which the response begins, is the station's and the
manual's to leave open (log 13). -/
def PortState.clockBytes (n port : Nat) : Nat → PortState → PortState
  | 0, q => q
  | j + 1, q => (PortState.clockBytes n port j q).clockByte (Config.responseBegins n port j)

/-- A port after the bytes of a millisecond: one that owes a response is clocked. -/
def State.clockedPort (s : State) (p : Port) : PortState :=
  let q := s.port p
  if q.recv = .working ∨ q.recv = .response then q.clockBytes s.free p.num (Config.bytesClocked s.free p.num) else q

/-- CHIP_SELECT_DEASSERT (R181): the port returns to IDLE and the rest of a response is discarded. -/
def execChipSelectDeassert (p : Port) (s : State) : Outcome :=
  .next (s.modPort p (fun q => { q with selected := false, recv := .idle, response := none }))

/-- The detail of a frame error (R180). -/
def frameDetail : FrameFault → Nat
  | .crc => 1 | .length => 2

/-- A request that ends before its checks: the port enters WORKING with an answer and nothing else changes (R180). -/
def State.answerOnly (p : Port) (r : Response) (s : State) : State :=
  if (s.port p).recv = .request then (s.enterWorking p).respond p r else s

/-- FRAME_ERROR (R180). -/
def execFrameError (p : Port) (kind : FrameFault) (s : State) : Outcome :=
  .next (s.answerOnly p ⟨.frameError, frameDetail kind, []⟩)

/-- UNKNOWN_COMMAND (R180): the code check stands before the role check (R179, log 21), so the answer does not depend on
the code. -/
def execUnknownCommand (p : Port) (_code : Byte) (s : State) : Outcome :=
  .next (s.answerOnly p ⟨.unknownCommand, 0, []⟩)

/-! ## Notices (R184, R185) -/

/-- The kinds of each notice group (R184): CELL, HEAT, CHARGE, HISTORY, PORT, from bit 0 on. -/
def groupMasks : List NoticeWord := [0x0000001F#32, 0x000000E0#32, 0x00000700#32, 0x00003800#32, 0x0007C000#32]

/-- The group summary byte of a notice set (R185). -/
def groupSummary (word : NoticeWord) : Nat := bits (groupMasks.map (fun m => (word &&& m) != 0#32))

/-- A notice read (R185): the set and the group summary are returned, the set is cleared, and the level kinds whose
condition is present are set again. -/
def noticeReadBody (p : Port) (s : State) : Reply :=
  let word := (s.port p).notices
  accept .ok (u32 word.toNat ++ u8 (groupSummary word)) (s.modPort p (fun q => { q with notices := s.levelNotices }))

/-- NOTICE_READ (R185). -/
def execNoticeRead (p : Port) (payload : List Byte) (s : State) : Outcome :=
  .next (s.request Summary.noticeRead p payload (noticeReadBody p))

/-- A notice mask write (R185): bits 19 to 31 must be clear. -/
def noticeMaskBody (p : Port) (payload : List Byte) (s : State) : Reply :=
  let mask := field payload 0 4
  if 2 ^ 19 ≤ mask then refuse .badValue 0 s
  else accept .ok [] (s.modPort p (fun q => { q with mask := BitVec.ofNat 32 mask }))

/-- NOTICE_MASK_WRITE (R185). -/
def execNoticeMaskWrite (p : Port) (payload : List Byte) (s : State) : Outcome :=
  .next (s.request Summary.noticeMaskWrite p payload (noticeMaskBody p payload))

/-! ## The long-operation slot (R183) -/

/-- The codes of the operation kinds, in the order of R183. -/
def OpKind.code : OpKind → Nat
  | .scaleZero => 0 | .scaleSpan => 1 | .settingsSave => 2 | .historyFormat => 3

/-- An operation result read (R183). -/
def operationResultBody (p : Port) (s : State) : Reply :=
  match (s.port p).slot with
  | .idle => refuse .nothing 0 s
  | .running kind _ => accept .inProgress (u8 kind.code) s
  | .done kind status data =>
    accept status (u8 kind.code ++ data) (s.modPort p (fun q => { q with slot := .idle }))

/-- OPERATION_RESULT (R183). -/
def execOperationResult (p : Port) (payload : List Byte) (s : State) : Outcome :=
  .next (s.request Summary.operationResult p payload (operationResultBody p))

/-! ## The clock (R186) -/

/-- One second of the Clock (R186): the uptime saturates, the shop clock wraps. -/
def Clock.second (c : Clock) : Clock :=
  { c with shop := (c.shop + 1) % (Config.max32 + 1), uptime := satInc Config.max32 c.uptime }

/-- CLOCK_SECOND (R186). -/
def execClockSecond (s : State) : Outcome := .next { s with clock := s.clock.second }

/-- A clock read (R186). -/
def clockReadBody (s : State) : Reply :=
  accept .ok (u32 s.clock.shop ++ flag s.clock.isSet ++ u32 s.clock.uptime) s

/-- CLOCK_READ (R186). -/
def execClockRead (p : Port) (payload : List Byte) (s : State) : Outcome :=
  .next (s.request Summary.clockRead p payload clockReadBody)

/-- A clock set (R186). -/
def clockSetBody (payload : List Byte) (s : State) : Reply :=
  accept .ok [] { s with clock := { s.clock with shop := field payload 0 4, isSet := true } }

/-- CLOCK_SET (R186). -/
def execClockSet (p : Port) (payload : List Byte) (s : State) : Outcome :=
  .next (s.request Summary.clockSet p payload (clockSetBody payload))

/-! ## Port restart and port status (R187, R189) -/

/-- A port restart (R187): the notice set is emptied but for level kinds present, the mask disables all kinds, the slot is
IDLE, the history cursor invalid and the read state IDLE; a read being served has its answer discarded (R174). The
invalid cursor keeps its value (DESIGN CHOICE, log 7). -/
def portRestartBody (p : Port) (s : State) : Reply :=
  accept .ok [] ((s.discardServed p).modPort p (fun q =>
    { q with notices := s.levelNotices, mask := 0#32, slot := .idle, cursorValid := false, read := .idle }))

/-- PORT_RESTART (R187). -/
def execPortRestart (p : Port) (payload : List Byte) (s : State) : Outcome :=
  .next (s.request Summary.portRestart p payload (portRestartBody p))

/-- The codes of the roles, in the order of R178. -/
def Role.code : Role → Nat
  | .off => 0 | .press => 1 | .charge => 2 | .supervisor => 3 | .observer => 4

/-- The codes of the receive states, in the order of R180. -/
def Receive.code : Receive → Nat
  | .idle => 0 | .request => 1 | .working => 2 | .response => 3 | .after => 4

/-- The codes of the slot states, in the order of R183. -/
def OpSlot.code : OpSlot → Nat
  | .idle => 0 | .running _ _ => 1 | .done _ _ _ => 2

/-- The kind a slot holds, absent while IDLE (R183). -/
def OpSlot.kind : OpSlot → Option OpKind
  | .idle => none
  | .running kind _ => some kind
  | .done kind _ _ => some kind

/-- A port status read (section 12.8). -/
def portStatusBody (p : Port) (s : State) : Reply :=
  let q := s.port p
  accept .ok
    (u8 q.role.code ++ u8 q.recv.code ++ u8 q.slot.code ++ optional 1 (q.slot.kind.map (fun k => u8 k.code))
      ++ u32 q.mask.toNat ++ u32 q.notices.toNat ++ (Port.all.map (fun p => u8 (s.port p).role.code)).flatten) s

/-- PORT_STATUS (section 12.8). -/
def execPortStatus (p : Port) (payload : List Byte) (s : State) : Outcome :=
  .next (s.request Summary.portStatus p payload (portStatusBody p))

end Sys2Proof.Machine
end

