-- ==== Sys2Proof/Machine/Scan.lean ====
section
/-! DEFINITION. The start-up scan (R164, R165): identification, the settings image, the headers of the ring, its record
slots. -/

namespace Sys2Proof.Machine

/-! ## Headers (R162, R164, R191) -/

/-- What a header slot says. -/
structure Header where
  ring : Nat
  seq : Nat
  first : Nat
deriving DecidableEq, Repr

/-- The header in slot 0 of a sector, when its slot is valid and of the header kind. -/
def Flash.header (f : Flash) (sector : Nat) : Option Header :=
  let bytes := f.slot sector 0
  if slotValid bytes && field bytes 0 1 == 0x10 then
    some { ring := field bytes 1 1, seq := field bytes 4 4, first := field bytes 8 4 }
  else none

/-- The sequence of the valid header of a sector, for the ring size and first sequence in use (R164). -/
def Flash.sequenceIn (f : Flash) (ring first sector : Nat) : Option Nat :=
  (f.header sector).bind (fun h =>
    if h.ring = ring ∧ h.first = first ∧ sectorOf ring h.seq = sector then some h.seq else none)

/-- The ring size and the first sequence in use (R164): from the image when it holds a ring size, otherwise from a valid
header of sector 1. A ring size below 2 is none (log 35). -/
def Flash.ringInUse (f : Flash) (image : Option SettingsImage) : Option (Nat × Nat) :=
  match image.bind (fun i => i.ringSize.map (fun n => (n, i.seqBase))) with
  | some x => some x
  | none => (f.header 1).bind (fun h => if 2 ≤ h.ring ∧ sectorOf h.ring h.seq = 1 then some (h.ring, h.first) else none)

/-! ## The run of sequences (R165) -/

/-- The highest of the sequences found. -/
def highest (xs : List Nat) : Option Nat := xs.foldl (fun m x => some (m.elim x (max x))) none

/-- The sequences of the valid headers of sectors 1 to N. -/
def Flash.sequences (f : Flash) (ring first : Nat) : List Nat :=
  (List.range ring).filterMap (fun i => f.sequenceIn ring first (i + 1))

/-- Steps down from the head, at most `n`: the oldest sequence of the run. -/
def stepDown (found : List Nat) : Nat → Nat → Nat
  | 0, s => s
  | n + 1, s => if 0 < s ∧ found.contains (s - 1) then stepDown found n (s - 1) else s

/-! ## Record slots (R165) -/

/-- What the scan notes of the record slots: torn slots and the highest shot number of a valid SHOT record. -/
structure Notes where
  torn : Nat
  shot : Option Nat
deriving DecidableEq, Repr

def Notes.note (n : Notes) (bytes : List Byte) : Notes :=
  if slotTorn bytes then { n with torn := n.torn + 1 }
  else if slotValid bytes && field bytes 0 1 == 0x01 then
    { n with shot := some (n.shot.elim (field bytes 8 4) (max (field bytes 8 4))) }
  else n

/-- The record slots 1 to 511 of the sector of a sequence. -/
def Flash.recordsOf (f : Flash) (ring seq : Nat) : List (List Byte) :=
  (List.range Config.recordSlots).map (fun i => f.slot (sectorOf ring seq) (i + 1))

/-- The slots of the head that come before its first blank one. -/
def Flash.headRecords (f : Flash) (ring head : Nat) : List (List Byte) :=
  (f.recordsOf ring head).takeWhile (fun b => !slotBlank b)

/-- The scan of the record slots from the oldest sequence to the head. -/
def Flash.scanRecords (f : Flash) (ring oldest head : Nat) : Notes :=
  let older := (List.range (head - oldest)).flatMap (fun i => f.recordsOf ring (oldest + i))
  (older ++ f.headRecords ring head).foldl Notes.note { torn := 0, shot := none }

/-! ## The whole scan (R164) -/

/-- The sectors a memory reports as the descriptor holds them, at most 65535 (R163; DEDUCED, log 44); none is no reply. -/
def reportedSectors (memory : Option Nat) : Nat := min Config.max16 (memory.getD 0)

/-- The memory is identified as ABSENT: no reply, or fewer than 3 sectors. -/
def memoryAbsent (memory : Option Nat) : Bool := decide (reportedSectors memory < 3)

/-- The valid image of sector 0, with its numbers clamped (R158); none when the defaults apply. -/
def Flash.loadedImage (f : Flash) (memory : Option Nat) : Option SettingsImage :=
  match memoryAbsent memory, f.settings with
  | false, .image i => some i.clamp
  | _, _ => none

/-- The descriptor without a ring (log 7), and with the stored settings of an image. -/
def History.without (memory : MemoryState) (sectors : Nat) (ring : Option Nat) (i : SettingsImage) : History :=
  { memory := memory, cause := none, sectors := sectors, ringSize := ring, ringHeld := false, firstSeq := 0, oldest := 0
    head := 0, writeSlot := 1, torn := 0, storedRing := i.ringSize, shotBase := i.shotBase, seqBase := i.seqBase
    format := none }

/-- The descriptor and the next shot number of a ring whose head was found (R165); the number stays within 32 bits (R2;
DEDUCED, log 44). -/
def Flash.readyRing (f : Flash) (sectors ring first head : Nat) (i : SettingsImage) : History × Nat :=
  let oldest := stepDown (f.sequences ring first) ring head
  let notes := f.scanRecords ring oldest head
  let base := History.without .ready sectors (some ring) i
  ({ base with
      ringHeld := true, firstSeq := first, oldest := oldest, head := head
      writeSlot := (f.headRecords ring head).length + 1, torn := notes.torn },
    notes.shot.elim i.shotBase (fun n => min Config.max32 (max (n + 1) i.shotBase)))

/-- The start-up scan (R164, R165): the History Controller and the next shot number after device reset. -/
def Flash.scan (f : Flash) (memory : Option Nat) : History × Nat :=
  let sectors := reportedSectors memory
  let image := f.loadedImage memory
  let i := image.getD defaultImage
  if memoryAbsent memory then (History.without .absent sectors none i, i.shotBase)
  else
    match f.ringInUse image with
    | none => (History.without .unformatted sectors none i, i.shotBase)
    | some (ring, first) =>
      if sectors < ring + 1 then (History.without .unformatted sectors (some ring) i, i.shotBase)
      else
        match highest (f.sequences ring first) with
        | none => (History.without .unformatted sectors (some ring) i, i.shotBase)
        | some head => f.readyRing sectors ring first head i

end Sys2Proof.Machine
end

