-- ==== Sys2Proof/Machine/Reset.lean ====
section
/-! DEFINITION. Device reset (R188 and the reset parts of every block's first rule): roles, the loading of the settings, the
start-up scan, the notices set at reset. -/

namespace Sys2Proof.Machine

/-! ## Roles (R178) -/

/-- The strapped role of a pair of pins. -/
def Strap.role : Strap → Role
  | ⟨false, false⟩ => .off
  | ⟨true, false⟩ => .press
  | ⟨false, true⟩ => .charge
  | ⟨true, true⟩ => .supervisor

/-- A role that a lower-numbered port already keeps becomes OBSERVER, for PRESS and CHARGE. -/
def resolveRole (lower : List Role) (own : Role) : Role :=
  if (own = .press ∨ own = .charge) ∧ lower.contains own then .observer else own

/-- The roles of the three ports. -/
def resolveRoles (straps : Three Strap) : Three Role :=
  let r1 := Strap.role straps.a1
  let r2 := Strap.role straps.a2
  let r3 := Strap.role straps.a3
  ⟨r1, resolveRole [r1] r2, resolveRole [r1, r2] r3⟩

/-! ## What an abandoned operation leaves in the flash (R157, R165, R166, log 9) -/

def cutFlash (op : LinkOp) (h : History) (n : Nat) (f : Flash) : Flash :=
  match op with
  | .flushProgram => f.program (sectorOf h.ring h.head) h.writeSlot (tornSlot n)
  | .sectorErase seq => f.cutErase n (sectorOf h.ring seq)
  | .sectorHeader seq => f.program (sectorOf h.ring seq) 0 (tornSlot n)
  | .portRead _ _ => f
  | .settingsErase _ | .settingsProgram _ | .format (.settingsErase _) | .format (.settingsProgram _) =>
    { f with settings := .partialImage }
  | .format (.ringErase k) => f.cutErase n k
  | .format .header => f.program (sectorOf (h.format.elim 0 (·.size)) (h.format.elim 0 (·.first))) 0 (tornSlot n)

/-- The flash as the reset finds it. -/
def State.abandonedFlash (s : State) : Flash :=
  match s.link.op with
  | none => s.flash
  | some op => cutFlash op s.history s.free s.flash

/-! ## Notices at reset (R184) -/

/-- HEAT_HOLD; HISTORY_FAULT where its condition is present; ROLE_CONFLICT; SETTINGS_DEFAULT. -/
def noticesAtReset (memory : MemoryState) (conflict defaults : Bool) : NoticeWord :=
  Notice.heatHold.word ||| (if memory.faulty then Notice.historyFault.word else 0#32)
    ||| (if conflict then Notice.roleConflict.word else 0#32)
    ||| (if defaults then Notice.settingsDefault.word else 0#32)

/-! ## The reset of one port and of the lines -/

/-- A port after reset: its role and notices, none for OFF (R179); a chip select that is asserted stays so, and the port
stays IDLE (R188). -/
def PortState.atReset (role : Role) (notices : NoticeWord) (q : PortState) : PortState :=
  { PortState.reset role (if role = .off then 0#32 else notices) with selected := q.selected }

/-- A line after reset with its raw level, which the reset does not change (R24). -/
def LineState.atReset (l : Line) (x : LineState) : LineState := .reset x.raw (resetLevel l)

/-- The Line Monitor after reset (R23, R25). -/
def LineMonitor.atReset (m : LineMonitor) : LineMonitor :=
  { LineMonitor.reset with
    line :=
      { mouldClosed := m.line.mouldClosed.atReset .mouldClosed, mouldOpen := m.line.mouldOpen.atReset .mouldOpen
        ejectFwd := m.line.ejectFwd.map (LineState.atReset (.ejectFwd .d1))
        ejectHome := m.line.ejectHome.map (LineState.atReset (.ejectHome .d1))
        heatInhibit := m.line.heatInhibit.atReset .heatInhibit, modeA := m.line.modeA.atReset .modeA
        modeB := m.line.modeB.atReset .modeB } }

/-! ## The reset (R188, R158) -/

/-- The blocks at their reset values with the stored settings of an image. -/
def State.withSettings (i : SettingsImage) (s : State) : State :=
  { s with
    channels := i.trim.map Channel.reset
    zones := Ten.tabulate (fun z => ZoneControl.reset (i.kp.get z) (i.ki.get z) (i.weight.get z))
    budget := { s.budget with inForce := i.budget }
    window := { s.window with length := i.window }
    trips := Ten.tabulate (fun z =>
      { openTrip := .reset (i.openKind.get z), overTrip := .reset (i.overKind.get z), limitTrip := .reset .latch })
    weigh := { s.weigh with zero := i.zero, span := i.span, band := i.band }
    arbiter := { s.arbiter with count := i.slotCount }
    board := { s.board with permitTime := i.permitTime }
    recipes := { s.recipes with slots := i.slots, active := i.activeSlot } }

/-- DEVICE_RESET (R188): every block takes its reset state, the roles are read, the start-up scan runs, the settings are
loaded and the ports restart. What the outside holds stays: raw levels, chip selects, the flash (with what an abandoned
operation leaves), and the commands that wait. -/
def execDeviceReset (straps : Three Strap) (memory : Option Nat) (s : State) : Outcome :=
  let flash := s.abandonedFlash
  let image := flash.loadedImage memory
  let (history, nextShot) := flash.scan memory
  let roles := resolveRoles straps
  let conflict := roles.a2 == .observer || roles.a3 == .observer
  let word := noticesAtReset history.memory conflict image.isNone
  let base := State.reset.withSettings (image.getD defaultImage)
  .next
    { base with
      lines := s.lines.atReset
      board := { base.board with nextShot := nextShot }
      recipes := { base.recipes with changed := image.isNone, fromImage := image.isSome }
      history := history
      flash := flash
      ports := ⟨s.ports.a1.atReset roles.a1 word, s.ports.a2.atReset roles.a2 word, s.ports.a3.atReset roles.a3 word⟩
      nextOp := s.nextOp
      free := if s.link.op.isSome then s.free + 1 else s.free
      pending := s.pending }

end Sys2Proof.Machine
end

