-- ==== Sys2Proof/Machine/Weigh.lean ====
section
/-! DEFINITION. The Weigh Front End (chapter 7): conversion, filter, overload, the settle test, the calibrations. -/

namespace Sys2Proof.Machine

/-! ## Conversion and filter (R99, R100) -/

/-- The weight of a raw sample in grams (R99), truncated toward zero. -/
def toGrams (zero : Int) (span : Nat) (raw : Int) : Int := Int.tdiv ((raw - zero) * span) 65536

/-- A bounded history takes a new item as its newest; the oldest leaves when it is full (R100). -/
def pushBounded {α : Type} (limit : Nat) (xs : List α) (x : α) : List α :=
  (xs ++ [x]).drop (xs.length + 1 - limit)

/-- The filtered value of a weight window, none while it holds fewer than 8 weights (R100). -/
def filteredValue (window : List (Int × Bool)) : Option Int :=
  if window.length = 8 then some (Int.tdiv (window.map (·.1)).sum 8) else none

/-! ## Overload and rest (R101 to R103) -/

/-- The overload condition at a sample (R103). -/
def overloadAt (window : List (Int × Bool)) (filtered : Option Int) : Bool :=
  window.any (·.2) ||
    match filtered with
    | some f => decide (60000 < f ∨ f < -60000)
    | none => false

/-- The spread of a filtered history: largest minus smallest (R101). -/
def spread : List Int → Int
  | [] => 0
  | x :: xs => xs.foldl max x - xs.foldl min x

/-- The settle test (R101). -/
def settleTest (filtered : List Int) (band : Nat) (overload : Bool) : Bool :=
  filtered.length == 16 && decide (spread filtered ≤ band) && !overload

/-! ## The calibration's samples (R105) -/

/-- A calibration takes one raw sample, up to 80. -/
def Calibration.take (raw : Int) (saturated : Bool) (c : Calibration) : Calibration :=
  if c.samples < Config.calSamples then
    { c with samples := c.samples + 1, sum := c.sum + raw, saturated := c.saturated || saturated }
  else c

/-! ## The arrival of a sample (R99 to R103, R105, R111) -/

/-- The Weigh Front End after a sample, before the settle test. -/
def Weigh.take (raw : Int) (saturated : Bool) (w : Weigh) : Weigh :=
  let window := pushBounded 8 w.window (toGrams w.zero w.span raw, saturated)
  let value := filteredValue window
  { w with
    raw := some (raw, saturated), window := window
    filtered := value.elim w.filtered (pushBounded 16 w.filtered)
    overload := overloadAt window value, cal := w.cal.map (Calibration.take raw saturated) }

/-- The settle test of the sample just taken, made when it added a filtered value: the settle state, the last settled
value, and the value of the settle event it makes, if any (R101, R102). -/
def Weigh.settle (w : Weigh) : Weigh × Option Int :=
  match filteredValue w.window with
  | none => (w, none)
  | some newest =>
    if settleTest w.filtered w.band w.overload then
      if w.settled then (w, none) else ({ w with settled := true, lastSettled := some newest }, some newest)
    else ({ w with settled := false }, none)

/-- SAMPLE_ARRIVAL (R99 to R103): at an overload onset SCALE_OVERLOAD is raised and the builder is told; a settle event
goes to the builder (R111). -/
def execSampleArrival (raw : Int) (saturated : Bool) (s : State) : Outcome :=
  let w := s.weigh.take raw saturated
  let (w', event) := w.settle
  let s1 := { s with weigh := w' }
  let s2 := if w.overload && !s.weigh.overload then (s1.raise .scaleOverload).overloadEvent else s1
  .next (event.elim s2 s2.settleEvent)

/-! ## Calibration (R105 to R109) -/

/-- The checks of a calibration request, in order, and its acceptance (R105). -/
def calibrationBody (p : Port) (kind : CalKind) (op : OpKind) (s : State) : Reply :=
  if (s.port p).slot.isRunning then refuse .busy 0 s
  else if s.weigh.cal.isSome then refuse .busy 0 s
  else if s.builder.state ≠ .idle then refuse .busy 0 s
  else
    let cal : Calibration := { kind := kind, port := p, op := s.nextOp, samples := 0, sum := 0, saturated := false }
    accept .inProgress [] (State.startOp p op { s with weigh := { s.weigh with cal := some cal } })

/-- SCALE_ZERO (R105). -/
def execScaleZero (p : Port) (payload : List Byte) (s : State) : Outcome :=
  .next (s.request Summary.scaleZero p payload (calibrationBody p .zeroing .scaleZero))

/-- SCALE_SPAN (R105): Wref is clamped to 100 to 60000 before the checks. -/
def execScaleSpan (p : Port) (payload : List Byte) (s : State) : Outcome :=
  let written := field payload 0 4
  let wref := clampNat 100 60000 written
  .next (s.request Summary.scaleSpan p payload (calibrationBody p (.spanning wref (wref != written)) .scaleSpan))

/-- A new zero and span in force: when either changed, window, history and rest are emptied and SETTINGS_CHANGED is set
(R108). -/
def State.setScale (zero : Int) (span : Nat) (s : State) : State :=
  if zero = s.weigh.zero ∧ span = s.weigh.span then s
  else
    State.settingsChanged { s with weigh :=
      { s.weigh with zero := zero, span := span, window := [], filtered := [], settled := false, lastSettled := none } }

/-- The calibration state returns to IDLE and the result is delivered (R106, R107). -/
def State.endCalibration (c : Calibration) (status : Status) (data : List Byte) (s : State) : State :=
  State.deliver c.port c.op status data { s with weigh := { s.weigh with cal := none } }

/-- The raw average of 80 samples, truncated toward zero (R105). -/
def Calibration.average (c : Calibration) : Int := Int.tdiv c.sum 80

/-- The completion of a scale zero (R106). -/
def State.zeroDone (c : Calibration) (s : State) : State :=
  if c.saturated then s.endCalibration c .calRange (s32 c.average)
  else
    (s.setScale c.average s.weigh.span).endCalibration c .ok (s32 c.average ++ s32 s.weigh.zero)

/-- The completion of a scale span (R107). -/
def State.spanDone (c : Calibration) (wref : Nat) (clamped : Bool) (s : State) : State :=
  let d := c.average - s.weigh.zero
  let span := wref * 65536 / d.toNat
  if c.saturated ∨ d ≤ 0 ∨ span = 0 ∨ 65535 < span then
    s.endCalibration c .calRange (s32 d ++ optional 4 (if 0 < d then some (u32 span) else none))
  else
    (s.setScale s.weigh.zero span).endCalibration c (okOrClamped clamped) (u16 span ++ u16 s.weigh.span ++ s32 d)

/-- SCALE_ZERO_DONE (R106): the 80th sample of a scale zero has been taken (log 32). -/
def execScaleZeroDone (s : State) : Outcome :=
  .next
    (match s.weigh.cal with
    | some c => if c.kind = .zeroing ∧ c.samples = Config.calSamples then s.zeroDone c else s
    | none => s)

/-- SCALE_SPAN_DONE (R107): the 80th sample of a scale span has been taken (log 32). -/
def execScaleSpanDone (s : State) : Outcome :=
  .next
    (match s.weigh.cal with
    | some c =>
      match c.kind with
      | .spanning wref clamped => if c.samples = Config.calSamples then s.spanDone c wref clamped else s
      | .zeroing => s
    | none => s)

/-! ## The stability band (R104) -/

/-- A stability band write (R104). -/
def stabilityBandBody (payload : List Byte) (s : State) : Reply :=
  let written := field payload 0 2
  let band := clampNat 1 255 written
  accept (okOrClamped (band != written)) [] { s with weigh := { s.weigh with band := band } }.settingsChanged

/-- STABILITY_BAND_WRITE (R104). -/
def execStabilityBandWrite (p : Port) (payload : List Byte) (s : State) : Outcome :=
  .next (s.request Summary.stabilityBandWrite p payload (stabilityBandBody payload))

end Sys2Proof.Machine
end

