-- ==== Sys2Proof/Machine/Trips.lean ====
section
/-! DEFINITION. The Trip Unit (chapter 5): the conditions of the three sources, the per-second test and its onsets, the end
of cycle trips, the trip clear, the configured kinds. -/

namespace Sys2Proof.Machine

/-! ## Conditions and onsets (section 5.1, R68, R69, R72 to R74) -/

/-- The condition of a source of a zone, on the zone's one-second value (table of section 5.1, R68). -/
def State.condition (s : State) (z : Zone) (src : Source) : Bool :=
  match src, (s.channel z).value, s.activeRecipe with
  | .openCircuit, .invalid _, _ => true
  | .over, .valid t, some r => decide (r.setpoint z + r.heat.overBand < t)
  | .limit, .valid t, _ => decide (3500 < t)
  | _, _, _ => false

/-- The trip state that an onset of a kind makes (R69). -/
def TripKind.inForce : TripKind → TripState
  | .cycle => .cycleInForce
  | .latch => .latchInForce

/-- A daylight as a HEAT_TRIP record names it (R73): its state and the number of the shot it holds. -/
def State.tripDaylight (s : State) (d : Daylight) : TripDaylight :=
  { daylight := d, state := (s.entry d).state, shot := s.shotNumber d }

/-- The HEAT_TRIP record of a latched onset (R73). -/
def State.heatTripRecord (s : State) (z : Zone) (src : Source) : HeatTrip :=
  { zone := z, source := src, value := (s.channel z).value, setpoint := s.setpoint z
    overBand := s.activeRecipe.map (·.heat.overBand), time := s.stamp
    below := z.platen.below.map s.tripDaylight, above := z.platen.above.map s.tripDaylight }

/-- The trips-during-cure field rises by one, saturating at 255 (R74). -/
def Shot.countTrip (shot : Shot) : Shot :=
  { shot with cure := shot.cure.map (fun c => { c with trips := satInc 255 c.trips }) }

/-- The daylights a zone bounds, lowest first. -/
def Zone.bounded (z : Zone) : List Daylight := z.platen.below.toList ++ z.platen.above.toList

/-- A latched onset counts against every CURING shot that the zone bounds (R74). -/
def State.countTrip (z : Zone) (s : State) : State :=
  s.each (Zone.bounded z) (fun d s => if (s.entry d).state = .curing then s.modShot d Shot.countTrip else s)

/-- The onset of a trip (R69 to R74): state by the configured kind, onset time and value, window cut; then TRIP_CYCLE, or
the HEAT_TRIP record offered, TRIP, and the trips-during-cure counts. -/
def State.takeOnset (z : Zone) (src : Source) (s : State) : State :=
  let kind := (s.trip z src).kind
  let s1 := s.modTrip z src (fun t => { t with state := kind.inForce, onset := some (s.stamp, (s.channel z).value) })
  let s2 := { s1 with window := { s1.window with cut := s1.window.cut.set z true } }
  match kind with
  | .cycle => s2.raise .tripCycle
  | .latch => ((s2.offerRecord (.heatTrip (s2.heatTripRecord z src))).raise .trip).countTrip z

/-- An onset is taken where the condition is present and no trip of the source is in force (R69). -/
def State.onsetTest (z : Zone) (src : Source) (s : State) : State :=
  if (s.channel z).formed && (s.trip z src).present && (s.trip z src).state == .none then s.takeOnset z src else s

/-- The condition flags of one zone (R68). -/
def State.testedFlags (s : State) (z : Zone) : ZoneTrips :=
  let t := s.trips.get z
  { openTrip := { t.openTrip with present := s.condition z .openCircuit }
    overTrip := { t.overTrip with present := s.condition z .over }
    limitTrip := { t.limitTrip with present := s.condition z .limit } }

/-- PER_SECOND_TEST (R68, R69): every condition flag is set, then the onsets are taken, zones and sources in ascending
order (log 17). A channel that has not formed a value takes no part (R40, R41). -/
def execPerSecondTest (s : State) : Outcome :=
  let s1 := { s with trips := Ten.tabulate (fun z => if (s.channel z).formed then s.testedFlags z else s.trips.get z) }
  .next (s1.each Zone.all (fun z s => s.each Source.all (fun src s => s.onsetTest z src)))

/-! ## The end of cycle trips (R71) -/

/-- A trip ends: state NONE, onset absent (R71, R75). -/
def Trip.ended (t : Trip) : Trip := { t with state := .none, onset := none }

/-- At a window start every cycle trip whose condition is absent ends (R71). -/
def State.endCycleTrips (s : State) : State :=
  let test (z : Zone) (src : Source) (t : Trip) : Trip :=
    if t.state = .cycleInForce ∧ s.condition z src = false then t.ended else t
  { s with trips := Ten.tabulate (fun z =>
      let t := s.trips.get z
      { openTrip := test z .openCircuit t.openTrip, overTrip := test z .over t.overTrip
        limitTrip := test z .limit t.limitTrip }) }

/-! ## Requests (R75, R77) -/

/-- The code of a trip state, in the order of R67. -/
def TripState.code : TripState → Nat
  | .none => 0 | .cycleInForce => 1 | .latchInForce => 2

/-- The code of an invalid cause (R191). -/
def Cause.code : Cause → Nat
  | .openCircuit => 0 | .overrange => 1

/-- A one-second value as its temperature and its invalid cause, one of them present (R190, log 19). -/
def SecondValue.bytes : SecondValue → List Byte
  | .valid t => optional 2 (some (u16 t)) ++ optional 1 none
  | .invalid c => optional 2 none ++ optional 1 (some (u8 c.code))

/-- The checks of a trip clear, in order (R75). -/
def tripClearBody (payload : List Byte) (z : Zone) (s : State) : Reply :=
  match sourceOf (byteAt payload 1) with
  | none => refuse .badValue 0 s
  | some src =>
    let t := s.trip z src
    if t.state ≠ .latchInForce then refuse .none t.state.code s
    else if t.present then refuseWith .active (s.channel z).value.bytes s
    else accept .ok [] (s.modTrip z src Trip.ended)

/-- TRIP_CLEAR (R75). -/
def execTripClear (p : Port) (payload : List Byte) (s : State) : Outcome :=
  .next (s.request Summary.tripClear p payload (onZone payload (tripClearBody payload)))

/-- A trip kind set (R77): OPEN and OVER only. -/
def tripKindBody (payload : List Byte) (z : Zone) (s : State) : Reply :=
  match sourceOf (byteAt payload 1), tripKindOf (byteAt payload 2) with
  | some .limit, _ => refuse .badValue 0 s
  | some src, some kind => accept .ok [] (s.modTrip z src (fun t => { t with kind := kind })).settingsChanged
  | _, _ => refuse .badValue 0 s

/-- TRIP_KIND_SET (R77). -/
def execTripKindSet (p : Port) (payload : List Byte) (s : State) : Outcome :=
  .next (s.request Summary.tripKindSet p payload (onZone payload (tripKindBody payload)))

end Sys2Proof.Machine
end

