-- ==== Sys2Proof/Machine/Zones.lean ====
section
/-! DEFINITION. Zone Controller, Heater Budget and Window Generator (chapter 4): the window start, the end of an on-time,
the writes that move modes, duties, budget, weights, gains and the window length. -/

namespace Sys2Proof.Machine

/-! ## Step 1: pending values take effect (R49, R52, R150) -/

/-- What a zone takes on entering a mode other than its own (R52). -/
def ZoneControl.enter (mode : ZoneMode) (z : ZoneControl) : ZoneControl :=
  match mode with
  | .off => { z with mode := .off, integ := 0, heldHigh := false, unclamped := 0, shadow := some 0 }
  | other => { z with mode := other, heldHigh := false }

/-- A zone's pending mode and pending load weight take effect (R49 step 1). -/
def ZoneControl.takePending (z : ZoneControl) : ZoneControl :=
  let z1 := if z.nextMode = z.mode then z else z.enter z.nextMode
  { z1 with pendingMode := none, weight := z.nextWeight, pendingWeight := none }

/-- The pending budget takes effect. -/
def Budget.takePending (b : Budget) : Budget := { b with inForce := b.next, pending := none }

/-- The next window length: the pending one when one is held, W otherwise (R48). -/
def Window.next (w : Window) : Nat := w.pending.getD w.length

/-- The pending window length takes effect. -/
def Window.takePending (w : Window) : Window := { w with length := w.next, pending := none }

/-- HEAT_REVISED is set in the shots of the CURING daylights (R150 step 3). -/
def State.markHeatRevised (s : State) : State :=
  s.each (s.daylightsIn [.curing]) (fun d => State.modShot d (fun shot => { shot with heatRevised := true }))

/-- The heat fields of a HEAT_NOW copy apply (R150): they replace those of the active record, the heat revision rises,
CURING shots are marked, RECIPE_APPLIED is raised; the copy stays pending only when its other fields differ. -/
def State.applyHeat (s : State) : State :=
  match s.recipes.copy, s.recipes.active, s.activeRecipe with
  | some c, some k, some r =>
    if c.apply = .heatNow ∧ c.heatApplied = false then
      let applied := { r with heat := c.record.heat }
      let copy := if c.record = applied then none else some { c with heatApplied := true }
      let s1 := s.modSlot k (fun x => { x with record := some applied })
      let s2 := { s1 with recipes :=
        { s1.recipes with heatRevision := satInc Config.max16 s1.recipes.heatRevision, copy := copy } }
      (s2.markHeatRevised.settingsChanged).raise .recipeApplied
    else s
  | _, _, _ => s

/-- Step 1 of a window start. -/
def State.takePending (s : State) : State :=
  State.applyHeat
    { s with
      budget := s.budget.takePending, window := s.window.takePending, zones := s.zones.map ZoneControl.takePending }

/-! ## Step 2: requests (R53, R54) -/

/-- The setpoint and temperature of a zone that computes: a recipe is active, its value is valid, it has no trip in force
and no heat hold is in force (R53). -/
def State.computing (s : State) (z : Zone) : Option (Nat × Nat) :=
  match s.setpoint z, (s.channel z).value with
  | some sp, .valid t => if !s.tripInForce z && !s.heatHold then some (sp, t) else none
  | _, _ => none

/-- The PI computation (R54); divisions truncate toward zero. -/
def ZoneControl.compute (setpoint temperature : Nat) (z : ZoneControl) : ZoneControl :=
  let e := clampInt (-500) 500 ((setpoint : Int) - temperature)
  let p := Int.tdiv (z.kp * e) 16
  let integ := if 0 < e ∧ z.heldHigh then z.integ else (clampInt 0 16000 (z.integ + z.ki * e)).toNat
  let u := p + ((integ / 16 : Nat) : Int)
  { z with integ := integ, unclamped := u, request := (clampInt 0 1000 u).toNat }

/-- The request of a zone (R49 step 2, R52, R53). -/
def ZoneControl.makeRequest (input : Option (Nat × Nat)) (z : ZoneControl) : ZoneControl :=
  match z.mode, input with
  | .auto, some (setpoint, temperature) => z.compute setpoint temperature
  | .auto, none => { z with request := 0, unclamped := 0, heldHigh := false }
  | _, _ => { z with request := 0, heldHigh := false }

def State.makeRequests (s : State) : State :=
  { s with zones := Ten.tabulate (fun z => (s.zone z).makeRequest (s.computing z)) }

/-! ## Step 3: grants (R55, R56) -/

/-- What a zone adds to the fixed load of a window start (R56). -/
def ZoneControl.fixedShare (z : ZoneControl) : Nat :=
  match z.mode with
  | .frozen => z.weight * z.duty
  | .manual => z.weight * z.shadowValue
  | _ => 0

/-- What a zone adds to the demand (R56). -/
def ZoneControl.demandShare (z : ZoneControl) : Nat := if z.mode = .auto then z.weight * z.request else 0

/-- The fixed load F of a window start (R56). -/
def fixedLoad (zones : Ten ZoneControl) : Nat := Ten.sum (fun z => (zones.get z).fixedShare)

/-- The demand D of a window start (R56). -/
def demandLoad (zones : Ten ZoneControl) : Nat := Ten.sum (fun z => (zones.get z).demandShare)

/-- The granted duty of an AUTO zone (R56). -/
def grantedDuty (available demand request : Nat) : Nat :=
  if demand ≤ available then request else request * available / demand

/-- An AUTO zone takes its grant as its shadow duty, and its held-high flag when it computed (R55). -/
def ZoneControl.takeGrant (available demand : Nat) (computed : Bool) (z : ZoneControl) : ZoneControl :=
  if z.mode = .auto then
    let grant := grantedDuty available demand z.request
    { z with shadow := some grant, heldHigh := computed && decide ((grant : Int) < z.unclamped) }
  else z

def State.makeGrants (s : State) : State :=
  let fixed := fixedLoad s.zones
  let available := s.budget.inForce - fixed
  let demand := demandLoad s.zones
  { s with
    zones := Ten.tabulate (fun z => (s.zone z).takeGrant available demand (s.computing z).isSome)
    budget :=
      { s.budget with fixed := fixed, available := available, demand := demand, scaled := decide (available < demand) } }

/-! ## Steps 4 and 5: transfer and outputs (R62 to R64) -/

/-- The shadow duty becomes the active duty of a zone that is not FROZEN (R62). -/
def ZoneControl.transfer (z : ZoneControl) : ZoneControl :=
  if z.mode = .frozen then z else { z with duty := z.shadowValue, shadowPending := false }

def State.transferDuties (s : State) : State := { s with zones := s.zones.map ZoneControl.transfer }

/-- The window restarts: phase 0, the window clock at W seconds (R47), on-times from the active duties, every window-cut flag cleared (R49 step 5, R64), also that of
a zone with a trip still in force, whose flag R76 and section 5.10 speak of as set at a clear in a later window (DEDUCED,
log 51). A zone with a trip or the hold in force now stays off for the whole window (DEDUCED, log 42). -/
def State.restartWindow (s : State) : State :=
  { s with window :=
    { s.window with
      phase := 0, untilStart := s.window.length, cut := .all false
      onTime := Ten.tabulate (fun z => (s.zone z).duty * s.window.length)
      blocked := Ten.tabulate (fun z => s.tripInForce z || s.heatHold) } }

/-- The work of a window start (R49): pending values, the end of cycle trips (R71), requests, grants, transfer, outputs. -/
def State.startWindow (s : State) : State :=
  s.takePending.endCycleTrips.makeRequests.makeGrants.transferDuties.restartWindow

/-- WINDOW_START (R47, R49): a window start that is due takes place; at another moment there is none and nothing changes
(DEDUCED, log 53). -/
def execWindowStart (s : State) : Outcome := .next (if s.window.startDue then s.startWindow else s)

/-- HEATER_ON_TIME_END (R63): an on-time shorter than the window has run out, so the phase has reached it (log 29). -/
def execHeaterOnTimeEnd (z : Zone) (s : State) : Outcome :=
  .next
    (if s.window.onTime.get z < s.window.length * 1000 then
      { s with window := { s.window with phase := max s.window.phase (s.window.onTime.get z) } }
    else s)

/-! ## Writes (R48, R51, R58 to R61) -/

/-- A window length set (R48). -/
def windowLengthBody (payload : List Byte) (s : State) : Reply :=
  let written := byteAt payload 0
  let length := clampNat 2 30 written
  accept (okOrClamped (length != written)) []
    { s with window := { s.window with pending := some length } }.settingsChanged

/-- WINDOW_LENGTH_SET (R48). -/
def execWindowLengthSet (p : Port) (payload : List Byte) (s : State) : Outcome :=
  .next (s.request Summary.windowLengthSet p payload (windowLengthBody payload))

/-- The next fixed load of the zones other than z (R58). -/
def State.otherFixed (s : State) (z : Zone) : Nat := nextFixedLoad s.zones - (s.zone z).nextFixed

/-- The largest shadow duty that the write bound allows a zone (R58). -/
def State.largestShadow (s : State) (z : Zone) : Nat :=
  (s.budget.writeBound - s.otherFixed z) / (s.zone z).nextWeight

/-- A duty limited as a manual duty write is limited (R58). -/
def State.limitedDuty (s : State) (z : Zone) (duty : Nat) : Nat := min (clampNat 0 1000 duty) (s.largestShadow z)

/-- A mode becomes the zone's next mode: naming the current mode clears the pending one (R51). -/
def ZoneControl.setNext (mode : ZoneMode) (z : ZoneControl) : ZoneControl :=
  { z with pendingMode := if mode = z.mode then none else some mode }

/-- A next mode other than MANUAL discards a pending shadow value (R51). The shadow of an OFF zone is then 0 (R62), that of
any other zone empty (log 26). -/
def ZoneControl.discardShadow (z : ZoneControl) : ZoneControl :=
  if z.shadowPending then { z with shadow := if z.mode = .off then some 0 else none, shadowPending := false } else z

/-- The checks and effects of a zone mode set (R51). -/
def zoneModeBody (payload : List Byte) (z : Zone) (s : State) : Reply :=
  match zoneModeOf (byteAt payload 1) with
  | none => refuse .badValue 0 s
  | some .auto => accept .ok [] (s.modZone z (fun x => (x.setNext .auto).discardShadow))
  | some .off => accept .ok [] (s.modZone z (fun x => (x.setNext .off).discardShadow))
  | some .frozen =>
    if s.budget.writeBound < s.otherFixed z + (s.zone z).nextWeight * (s.zone z).duty then
      refuse .budgetBelowFixed 0 s
    else accept .ok [] (s.modZone z (fun x => (x.setNext .frozen).discardShadow))
  | some .manual =>
    if (s.zone z).nextMode = .manual then accept .ok [] (s.modZone z (ZoneControl.setNext .manual))
    else
      let duty := s.limitedDuty z (s.zone z).duty
      accept (okOrClamped (duty != (s.zone z).duty)) []
        (s.modZone z (fun x => { x.setNext .manual with shadow := some duty, shadowPending := true }))

/-- ZONE_MODE_SET (R51). -/
def execZoneModeSet (p : Port) (payload : List Byte) (s : State) : Outcome :=
  .next (s.request Summary.zoneModeSet p payload (onZone payload (zoneModeBody payload)))

/-- The code of a zone mode, in the order of R45. -/
def ZoneMode.code : ZoneMode → Nat
  | .auto => 0 | .manual => 1 | .frozen => 2 | .off => 3

/-- A manual duty write (R58). -/
def manualDutyBody (payload : List Byte) (z : Zone) (s : State) : Reply :=
  if (s.zone z).nextMode ≠ .manual then refuse .wrongState (s.zone z).nextMode.code s
  else
    let written := field payload 1 2
    let duty := s.limitedDuty z written
    accept (okOrClamped (duty != written)) (u16 duty)
      (s.modZone z (fun x => { x with shadow := some duty, shadowPending := true }))

/-- MANUAL_DUTY_WRITE (R58). -/
def execManualDutyWrite (p : Port) (payload : List Byte) (s : State) : Outcome :=
  .next (s.request Summary.manualDutyWrite p payload (onZone payload (manualDutyBody payload)))

/-- A budget set (R59). -/
def budgetBody (payload : List Byte) (s : State) : Reply :=
  let written := field payload 0 4
  let budget := min Config.maxBudget written
  if budget < nextFixedLoad s.zones then refuseWith .budgetBelowFixed (u32 (nextFixedLoad s.zones)) s
  else
    accept (okOrClamped (budget != written)) []
      { s with budget := { s.budget with pending := some budget } }.settingsChanged

/-- BUDGET_SET (R59). -/
def execBudgetSet (p : Port) (payload : List Byte) (s : State) : Outcome :=
  .next (s.request Summary.budgetSet p payload (budgetBody payload))

/-- A load weight write (R60). -/
def loadWeightBody (payload : List Byte) (z : Zone) (s : State) : Reply :=
  let written := byteAt payload 1
  let weight := clampNat 1 15 written
  let counted := s.otherFixed z + ({ s.zone z with pendingWeight := some weight } : ZoneControl).nextFixed
  if [ZoneMode.frozen, .manual].contains (s.zone z).nextMode && decide (s.budget.writeBound < counted) then
    refuse .budgetBelowFixed 0 s
  else
    accept (okOrClamped (weight != written)) []
      (s.modZone z (fun x => { x with pendingWeight := some weight })).settingsChanged

/-- LOAD_WEIGHT_WRITE (R60). -/
def execLoadWeightWrite (p : Port) (payload : List Byte) (s : State) : Outcome :=
  .next (s.request Summary.loadWeightWrite p payload (onZone payload (loadWeightBody payload)))

/-- A gains write (R61). -/
def gainsBody (payload : List Byte) (z : Zone) (s : State) : Reply :=
  let kp := field payload 1 2
  let ki := field payload 3 2
  let kp' := clampNat 0 255 kp
  let ki' := clampNat 0 255 ki
  accept (okOrClamped (kp' != kp || ki' != ki)) []
    (s.modZone z (fun x => { x with kp := kp', ki := ki' })).settingsChanged

/-- GAINS_WRITE (R61). -/
def execGainsWrite (p : Port) (payload : List Byte) (s : State) : Outcome :=
  .next (s.request Summary.gainsWrite p payload (onZone payload (gainsBody payload)))

end Sys2Proof.Machine
end

