-- ==== Sys2Proof/Machine/Status.lean ====
section
/-! DEFINITION. The status reads: the payload of each, field by field in the order its rule lists them, in the formats of
R190. What R190 leaves to the reader of a rule (log 19): each field that a rule gives under a condition has its own
presence byte; enumerations are coded in the order of the rule that first lists them (log 20). -/

namespace Sys2Proof.Machine

/-- A presence byte and a field whose bytes an optional value gives. -/
def opt {α : Type} (width : Nat) (x : Option α) (enc : α → List Byte) : List Byte := optional width (x.map enc)

/-- A timestamp in a response: the value, then its clock-set flag (R190). -/
def Stamp.bytes (t : Stamp) : List Byte := u32 t.value ++ flag t.set

/-- The same for each of the daylights, lowest first. -/
def perDaylight (f : Daylight → List Byte) : List Byte := (Daylight.all.map f).flatten

/-- The same for each of the zones, lowest first. -/
def perZone (f : Zone → List Byte) : List Byte := (Zone.all.map f).flatten

/-! ## Daylight status (R21) -/

/-- The permit seconds remaining of a timer: whole seconds as they are, a value the manual does not give between them
(log 28). -/
def permitSeconds (ms : Nat) : Nat := if ms % 1000 = 0 then ms / 1000 else Config.permitSecondsBetween ms

/-- The equivalent seconds still needed to reach the target, rounded up (R95). -/
def ShotCure.remaining (c : ShotCure) : Nat := (256 * c.target - c.index + 255) / 256

/-- The first failing zone and its condition (R3), absent when heat-ready. -/
def heatReadyBytes (x : Option (Zone × Readiness)) : List Byte :=
  flag x.isNone ++ opt 1 x (fun x => u8 x.1.num) ++ opt 1 x (fun x => u8 x.2.code)

/-- The three flags of a shot, present once one of them is set. -/
def shotFlags (r : Shot) : Option (List Byte) :=
  if r.lateLoad || r.heatRevised || r.notHome then some (flag r.lateLoad ++ flag r.heatRevised ++ flag r.notHome)
  else none

/-- What an AWAIT_COMMIT daylight waits for: queue space 0, an earlier shot 1 (R21). -/
def State.commitWait (s : State) (d : Daylight) : Option Nat :=
  if (s.entry d).state = .awaitCommit then some (if s.offerTarget = some d then 0 else 1) else none

def State.daylightFields (s : State) (d : Daylight) : List Byte :=
  let e := s.entry d
  let cure := e.shot.bind (·.cure)
  u8 e.state.code ++ heatReadyBytes (s.firstUnready d)
    ++ opt 1 (if e.state = .loadPermitted then e.permit else none) (fun ms => u8 (permitSeconds ms))
    ++ opt 4 (s.queued d) (fun q => u32 q.record.number)
    ++ opt 4 e.shot (fun r => u32 r.number) ++ opt 4 (e.shot.bind (·.charge)) (fun c => u32 c.number)
    ++ opt 1 (e.shot.bind (·.recipe)) (fun x => u8 x.1.num) ++ opt 2 (e.shot.bind (·.recipe)) (fun x => u16 x.2)
    ++ opt 4 cure (fun c => u32 c.index) ++ opt 2 cure (fun c => u16 c.seconds) ++ opt 2 cure (fun c => u16 c.remaining)
    ++ opt 1 (e.shot.bind (·.outcome)) (fun o => u8 o.code)
    ++ opt 1 ((e.shot.map (·.attempts)).filter (0 < ·)) u8 ++ optional 3 (e.shot.bind shotFlags)
    ++ opt 1 (s.commitWait d) u8

def State.daylightPayload (s : State) : List Byte := u32 s.board.nextShot ++ u8 s.depth ++ perDaylight s.daylightFields

/-- DAYLIGHT_STATUS (R21). -/
def execDaylightStatus (p : Port) (payload : List Byte) (s : State) : Outcome :=
  .next (s.request Summary.daylightStatus p payload (fun s => accept .ok s.daylightPayload s))

/-! ## Line status (R31) -/

/-- A level: asserted 0, deasserted 1 (R23). -/
def levelCode (b : Bool) : Nat := if b then 0 else 1

/-- A debounced level: asserted 0, deasserted 1, none 2 (R23). -/
def debouncedCode (x : Option Bool) : Nat := x.elim 2 levelCode

/-- RUN 0, SETUP 1, STOP 2 (R28). -/
def Mode.code : Mode → Nat
  | .run => 0 | .setup => 1 | .stop => 2

def State.lineFields (s : State) (l : Line) : List Byte :=
  let x := s.lines.line.get l
  u8 (levelCode x.raw) ++ u8 (debouncedCode x.debounced) ++ u8 (levelCode x.level)

/-- The fault set as a mask: MODE_ILLEGAL, MOULD_PAIR, EJECT_PAIR 1 to 4 from bit 0 on (R29; R190 gives these sets no bits:
DESIGN CHOICE, log 45). -/
def LineFaults.mask (f : LineFaults) : Nat :=
  bits [f.modeIllegal, f.mouldPair, f.ejectPair.a1, f.ejectPair.a2, f.ejectPair.a3, f.ejectPair.a4]

/-- The line status (R31). The hold reasons are a mask with STOP at bit 0 and INHIBIT at bit 1 (DESIGN CHOICE, log 45). -/
def State.linePayload (s : State) : List Byte :=
  u8 (if s.lines.qualify.isSome then 0 else 1) ++ (Line.all.map s.lineFields).flatten ++ u8 s.lines.mode.code
    ++ flag s.heatHold ++ u8 (bits [s.lines.hold.stop, s.lines.hold.inhibit]) ++ u8 s.lines.faults.mask

/-- LINE_STATUS (R31). -/
def execLineStatus (p : Port) (payload : List Byte) (s : State) : Outcome :=
  .next (s.request Summary.lineStatus p payload (fun s => accept .ok s.linePayload s))

/-! ## Zone status and channel read (R43, R44) -/

/-- CYCLE 0, LATCH 1 (R67). -/
def TripKind.code : TripKind → Nat
  | .cycle => 0 | .latch => 1

/-- The kind of a trip in force, none when no trip is (R70). -/
def TripState.kind : TripState → Option TripKind
  | .none => Option.none
  | .cycleInForce => some .cycle
  | .latchInForce => some .latch

/-- The source and kind of each trip in force of a zone. -/
def State.tripList (s : State) (z : Zone) : List (List Byte) :=
  Source.all.filterMap (fun src => (s.trip z src).state.kind.map (fun k => u8 src.code ++ u8 k.code))

def State.zoneFields (s : State) (z : Zone) : List Byte :=
  (s.channel z).value.bytes ++ flag (s.channel z).formed ++ u8 (s.readiness z).code ++ opt 2 (s.setpoint z) u16
    ++ u8 (s.zone z).mode.code ++ u16 (s.zone z).request ++ u16 (s.zone z).duty ++ counted (s.tripList z)

/-- ZONE_STATUS (R43). -/
def execZoneStatus (p : Port) (payload : List Byte) (s : State) : Outcome :=
  .next (s.request Summary.zoneStatus p payload (fun s => accept .ok (perZone s.zoneFields) s))

/-- A sample of a channel read: its kind, OPEN 0, OVERRANGE 1, VALID 2 (R34), and the temperature of a VALID one. -/
def Sample.bytes : Sample → List Byte
  | .openCircuit => u8 0 ++ optional 2 none
  | .overrange => u8 1 ++ optional 2 none
  | .valid t => u8 2 ++ optional 2 (some (u16 t))

/-- The fields of a channel read (R44); the number of samples is the count of their list. -/
def Channel.bytes (c : Channel) : List Byte :=
  s8 c.trim ++ counted (c.history.map Sample.bytes) ++ c.value.bytes ++ flag c.formed

def channelReadBody (z : Zone) (s : State) : Reply := accept .ok (s.channel z).bytes s

/-- CHANNEL_READ (R44). -/
def execChannelRead (p : Port) (payload : List Byte) (s : State) : Outcome :=
  .next (s.request Summary.channelRead p payload (onZone payload channelReadBody))

/-! ## Zone control read and budget status (R65, R66) -/

/-- The fields of one zone (R65). Kp and Ki take the two bytes that section 12.8 gives them in a gains write (DEDUCED,
log 46). -/
def State.zoneControlFields (s : State) (z : Zone) : List Byte :=
  let x := s.zone z
  u8 x.mode.code ++ opt 1 x.pendingMode (fun m => u8 m.code) ++ u16 x.kp ++ u16 x.ki
    ++ u8 x.weight ++ opt 1 x.pendingWeight u8 ++ u16 x.integ ++ s16 x.unclamped ++ u16 x.request
    ++ opt 2 x.shadow u16 ++ flag x.shadowPending ++ u16 x.duty ++ u16 (s.window.onTime.get z)
    ++ flag x.heldHigh ++ flag (s.window.cut.get z) ++ flag (s.heaterOutput z)

/-- ZONE_CONTROL_READ (R65). -/
def execZoneControlRead (p : Port) (payload : List Byte) (s : State) : Outcome :=
  .next (s.request Summary.zoneControlRead p payload (fun s => accept .ok (perZone s.zoneControlFields) s))

def State.budgetPayload (s : State) : List Byte :=
  u32 s.budget.inForce ++ opt 4 s.budget.pending u32 ++ u32 s.budget.writeBound ++ u32 (nextFixedLoad s.zones)
    ++ u32 s.budget.fixed ++ u32 s.budget.available ++ u32 s.budget.demand ++ flag s.budget.scaled
    ++ u32 (dutyLoad s.zones) ++ u8 s.window.length ++ opt 1 s.window.pending u8 ++ u16 s.window.phase

/-- BUDGET_STATUS (R66). -/
def execBudgetStatus (p : Port) (payload : List Byte) (s : State) : Outcome :=
  .next (s.request Summary.budgetStatus p payload (fun s => accept .ok s.budgetPayload s))

/-! ## Trip status (R80) -/

/-- Onset time and onset value, present when a trip is in force. -/
def onsetBytes (x : Option (Stamp × SecondValue)) : List Byte :=
  match x with
  | some (t, v) => optional 5 (some t.bytes) ++ v.bytes
  | none => optional 5 none ++ optional 2 none ++ optional 1 none

def State.tripFields (s : State) (z : Zone) : List Byte :=
  (Source.all.map (fun src =>
    let t := s.trip z src
    u8 t.kind.code ++ u8 t.state.code ++ flag t.present ++ onsetBytes t.onset)).flatten

def State.tripPayload (s : State) : List Byte :=
  perZone s.tripFields ++ u8 (Zone.all.filter s.latchInForce).length ++ u8 (Zone.all.filter s.cycleInForce).length

/-- TRIP_STATUS (R80). -/
def execTripStatus (p : Port) (payload : List Byte) (s : State) : Outcome :=
  .next (s.request Summary.tripStatus p payload (fun s => accept .ok s.tripPayload s))

/-! ## Cure status (R96) -/

/-- NONE 0, PAUSED 1, COLD 2, RATED 3 (R82). -/
def SecondClass.code : SecondClass → Nat
  | .none => 0 | .paused => 1 | .cold => 2 | .rated => 3

/-- The zones of a set as a mask (R190). -/
def zoneMask (zs : List Zone) : Nat := maskOf Zone.num zs

/-- The open shot a daylight holds: its record is not closed yet (R96, log 23). -/
def State.openRecord (s : State) (d : Daylight) : Option Shot :=
  if (s.entry d).state = .awaitCommit then none else (s.entry d).shot

def causesBytes (c : PauseCauses) : List Byte :=
  u16 (zoneMask c.invalid) ++ u16 (zoneMask c.latched) ++ flag c.hold

def State.cureFields (s : State) (d : Daylight) : List Byte :=
  let shot := s.openRecord d
  let cure := shot.bind (·.cure)
  let own := shot.map (fun _ => s.cure.get d)
  let recipe := shot.bind (fun _ => s.activeRecipe.map (·.cure))
  let both := cure.bind (fun c => recipe.map (fun r => (c, r)))
  let left := own.bind (fun x => recipe.map (fun r => (r.limit : Int) - x.pause))
  let extreme (x : Option (Nat × Nat)) : List Byte := opt 4 x (fun x => u16 x.1 ++ u16 x.2)
  u8 (s.entry d).state.code ++ opt 1 (shot.bind (·.outcome)) (fun o => u8 o.code)
    ++ opt 4 cure (fun c => u32 c.index) ++ opt 4 cure (fun c => u32 (256 * c.target))
    ++ opt 2 cure (fun c => u16 c.remaining)
    ++ opt 2 cure (fun c => u16 c.seconds) ++ opt 2 recipe (fun r => u16 r.dwell)
    ++ opt 2 both (fun x => u16 (x.2.dwell - x.1.seconds))
    ++ opt 2 cure (fun c => u16 c.paused) ++ opt 2 cure (fun c => u16 c.longest)
    ++ opt 2 own (fun x => u16 x.pause) ++ opt 2 recipe (fun r => u16 r.limit) ++ opt 2 left s16
    ++ opt 1 own (fun x => u8 x.cls.code) ++ opt 5 own (fun x => causesBytes x.causes)
    ++ opt 2 (own.bind (·.tc)) u16 ++ opt 2 (own.bind (·.rate)) u16
    ++ extreme (cure.bind (·.extremes.a1)) ++ extreme (cure.bind (·.extremes.a2))
    ++ extreme (cure.bind (·.extremes.a3)) ++ extreme (cure.bind (·.extremes.a4))
    ++ opt 2 recipe (fun r => u16 r.tref) ++ opt 2 recipe (fun r => u16 r.step) ++ opt 2 recipe (fun r => u16 r.tmin)

/-- CURE_STATUS (R96). -/
def execCureStatus (p : Port) (payload : List Byte) (s : State) : Outcome :=
  .next (s.request Summary.cureStatus p payload (fun s => accept .ok (perDaylight s.cureFields) s))

/-! ## Scale status (R110) -/

/-- IDLE 0, ZEROING 1, SPANNING 2 (R98). -/
def calCode (c : Option Calibration) : Nat :=
  match c with
  | none => 0
  | some c =>
    match c.kind with
    | .zeroing => 1
    | .spanning _ _ => 2

/-- The reference weight of a SPANNING calibration. -/
def CalKind.wref : CalKind → Option Nat
  | .zeroing => none
  | .spanning wref _ => some wref

/-- The scale status (R110); the stability band takes the two bytes of section 12.8 (DEDUCED, log 46). -/
def Weigh.bytes (w : Weigh) : List Byte :=
  opt 4 w.raw (fun x => s32 x.1) ++ opt 1 w.raw (fun x => flag x.2)
    ++ opt 4 w.window.getLast? (fun x => s32 x.1) ++ u8 w.window.length
    ++ opt 4 w.filtered.getLast? s32 ++ u8 w.filtered.length
    ++ opt 4 (if w.filtered.length = 16 then some (spread w.filtered) else none) s32
    ++ u8 (if w.settled then 0 else 1) ++ opt 4 w.lastSettled s32 ++ flag w.overload
    ++ s32 w.zero ++ u16 w.span ++ u16 w.band ++ u8 (calCode w.cal)
    ++ opt 1 w.cal (fun c => u8 c.port.num) ++ opt 4 (w.cal.bind (·.kind.wref)) u32 ++ opt 1 w.cal (fun c => u8 c.samples)

/-- SCALE_STATUS (R110). -/
def execScaleStatus (p : Port) (payload : List Byte) (s : State) : Outcome :=
  .next (s.request Summary.scaleStatus p payload (fun s => accept .ok s.weigh.bytes s))

/-! ## Charge status (R129) -/

/-- The variants of a set as a mask: variant v at bit v − 1 (R190). -/
def variantMask (f : VariantSet) : Nat := maskOf (fun v => v.num - 1) f.members

/-- The fields of the charge in progress; each absent when there is none. -/
def Builder.chargeBytes (b : Builder) : List Byte :=
  let during {α : Type} (x : Option α) : Option α := b.charge.bind (fun _ => x)
  opt 4 b.charge (fun c => u32 c.number) ++ opt 1 b.charge (fun c => u8 c.daylight.num)
    ++ opt 1 b.charge (fun c => u8 c.slot.num) ++ opt 2 b.charge (fun c => u16 c.version)
    ++ opt 4 (during b.tare) s32 ++ opt 4 (during b.reference) s32 ++ opt 4 (during b.latest) s32
    ++ flag b.charge.isSome
    ++ counted (if b.charge.isSome then b.pieces.map (fun x => s32 x.weight ++ u8 (variantMask x.matched)) else [])
    ++ opt 1 b.charge (fun _ => u8 (variantMask b.live)) ++ opt 1 (during b.waiting) (fun v => u8 v.num)
    ++ opt 1 b.charge (fun _ => u8 b.wrongCount)
    ++ opt 4 (during b.tareTimer) u32 ++ opt 4 (during b.gapTimer) u32 ++ opt 4 (during b.recoveryTimer) u32
    ++ opt 1 (during b.recovery) (fun r => u8 r.state.code)

/-- The last outcome: charge number, ACCEPTED 0 or REJECTED 1 (R112), and the reason of a rejection. -/
def outcomeBytes (x : Option ChargeOutcome) : List Byte :=
  opt 4 x (fun o => u32 o.number) ++ opt 1 x (fun o => u8 (if o.rejected.isSome then 1 else 0))
    ++ opt 1 (x.bind (·.rejected)) (fun r => u8 r.code)

def State.queueEntryBytes (s : State) (e : QueueEntry) : List Byte :=
  u32 e.record.number ++ u8 e.record.daylight.num ++ orZeros 1 e.record.variant (fun v => u8 v.num) ++ s32 e.record.total
    ++ u32 e.age ++ u16 e.life ++ u16 (e.life - e.age)
    ++ flag ((s.entry e.record.daylight).state == .loadPermitted)

def State.chargePayload (s : State) : List Byte :=
  u8 s.builder.state.code ++ s.builder.chargeBytes ++ outcomeBytes s.builder.last ++ u32 s.builder.nextNumber
    ++ counted (s.queue.map s.queueEntryBytes)

/-- CHARGE_STATUS (R129). -/
def execChargeStatus (p : Port) (payload : List Byte) (s : State) : Outcome :=
  .next (s.request Summary.chargeStatus p payload (fun s => accept .ok s.chargePayload s))

/-! ## Demould status (R143) -/

/-- IDLE 0, WAIT_OPEN 1, WAIT_SLOT 2, FORWARD 3, RETURN 4 (R130). -/
def SeqPhase.code : SeqPhase → Nat
  | .idle => 0 | .waitOpen => 1 | .waitSlot => 2 | .forward => 3 | .retract => 4

/-- WAIT_SLOT 0, FORWARD 1, RETURN 2. -/
def TestPhase.code : TestPhase → Nat
  | .waitSlot => 0 | .forward => 1 | .retract => 2

/-- PASSED 0, NO_FWD 1, NO_HOME 2, ABORTED 3. -/
def TestResult.code : TestResult → Nat
  | .passed => 0 | .noFwd => 1 | .noHome => 2 | .aborted => 3

/-- The ms left on the running timer of a daylight's sequence or test. -/
def Ejector.timeLeft (e : Ejector) : Option Nat := e.timer <|> e.test.bind (·.timer)

/-- The fields of one daylight in the demould status (R143). Outcome and NOT_HOME are shown while the daylight is DEMOULDING, as
R143 says; NOT_HOME is set as a daylight leaves that state, so a station does not find it set here, as R144 has it (DEDUCED,
log 54). -/
def State.demouldFields (s : State) (d : Daylight) : List Byte :=
  let e := s.ejector d
  let shot := if (s.entry d).state = .demoulding then (s.entry d).shot else none
  u8 e.phase.code ++ u8 e.attempt ++ flag e.failed ++ opt 2 e.timeLeft u16 ++ flag e.valve
    ++ flag (s.holds d) ++ flag (s.waits d)
    ++ opt 1 (shot.bind (·.outcome)) (fun o => u8 o.code) ++ opt 1 shot (fun r => flag r.notHome)

def State.testFields (s : State) (d : Daylight) : List Byte :=
  let e := s.ejector d
  opt 1 e.test (fun t => u8 t.phase.code) ++ opt 1 e.lastTest (fun r => u8 r.code)

/-- The demould status (R143). With no recipe active no sequence has an eject limit: the field is then absent (DESIGN CHOICE,
log 48). -/
def State.demouldPayload (s : State) : List Byte :=
  let g := s.demould.grant
  flag g.isSome ++ opt 5 g (fun g => g.time.bytes) ++ opt 1 g (fun g => u8 (daylightMask g.daylights.members))
    ++ perDaylight s.demouldFields ++ perDaylight s.testFields
    ++ u8 s.arbiter.count ++ u8 s.arbiter.slotsInForce
    ++ u8 (daylightMask s.arbiter.holders.members) ++ u8 (daylightMask s.arbiter.waiting.members)
    ++ opt 1 s.activeRecipe (fun r => u8 r.eject)

/-- DEMOULD_STATUS (R143). -/
def execDemouldStatus (p : Port) (payload : List Byte) (s : State) : Outcome :=
  .next (s.request Summary.demouldStatus p payload (fun s => accept .ok s.demouldPayload s))

/-! ## Recipe read, recipe status, settings status (R154, R158) -/

/-- AT_IDLE 0, HEAT_NOW 1 (R189). -/
def ApplyPoint.code : ApplyPoint → Nat
  | .atIdle => 0 | .heatNow => 1

def recipeReadBody (k : RecipeSlot) (s : State) : Reply :=
  let c := s.recipes.slots.get k
  accept .ok
    (flag c.record.isNone ++ u16 c.version ++ opt 138 c.record Recipe.bytes ++ flag (s.recipes.active == some k)
      ++ flag (s.recipes.selection == some (some k))) s

/-- RECIPE_READ (R154). -/
def execRecipeRead (p : Port) (payload : List Byte) (s : State) : Outcome :=
  .next (s.request Summary.recipeRead p payload (onRecipeSlot payload recipeReadBody))

/-- The pending selection: a slot number, or 0xFF for NO_RECIPE (R189). -/
def selectionByte : Option RecipeSlot → List Byte
  | some k => u8 k.num
  | none => u8 0xFF

def State.recipePayload (s : State) : List Byte :=
  let r := s.recipes
  let busy {α : Type} (x : α) : Option α := if s.cellIdle then none else some x
  let holding := Daylight.all.find? (fun d => !([DaylightState.vacant, .unknown].contains (s.entry d).state))
  opt 1 r.active (fun k => u8 k.num) ++ opt 2 r.active (fun k => u16 (s.slotVersion k)) ++ u16 r.heatRevision
    ++ flag r.copy.isSome ++ opt 1 r.copy (fun c => u8 c.apply.code) ++ opt 1 r.copy (fun c => flag c.heatApplied)
    ++ opt 138 r.copy (fun c => c.record.bytes) ++ opt 1 r.selection selectionByte
    ++ flag s.cellIdle ++ opt 1 (if s.cellIdle then none else holding) (fun d => u8 d.num)
    ++ opt 1 (busy s.builder.state) (fun b => u8 b.code) ++ opt 1 (busy s.queue.length) u8

/-- RECIPE_STATUS (R154). -/
def execRecipeStatus (p : Port) (payload : List Byte) (s : State) : Outcome :=
  .next (s.request Summary.recipeStatus p payload (fun s => accept .ok s.recipePayload s))

/-- The settings status (R158). The result of the last save is its status code alone: the SETTINGS_CHANGED flag that a result
also carries (R157 step 4) is in the port's slot only (DESIGN CHOICE, log 52). -/
def State.settingsPayload (s : State) : List Byte :=
  let r := s.recipes
  u8 (if r.fromImage then 0 else 1) ++ flag r.changed ++ flag r.save.isSome ++ opt 1 r.save (fun x => u8 x.port.num)
    ++ opt 1 r.lastSave (fun x => u8 x.code)

/-- SETTINGS_STATUS (R158). -/
def execSettingsStatus (p : Port) (payload : List Byte) (s : State) : Outcome :=
  .next (s.request Summary.settingsStatus p payload (fun s => accept .ok s.settingsPayload s))

/-! ## History status (R177) -/

/-- ABSENT 0, UNFORMATTED 1, READY 2, FORMATTING 3, FAULT 4 (R163). -/
def MemoryState.code : MemoryState → Nat
  | .absent => 0 | .unformatted => 1 | .ready => 2 | .formatting => 3 | .fault => 4

/-- IDLE 0, LAZY 1, STEADY 2, PRESSING 3 (R161). -/
def Urgency.code : Urgency → Nat
  | .idle => 0 | .lazy => 1 | .steady => 2 | .pressing => 3

/-- The kind of a record, by its slot kind (R191). -/
def HistRecord.kind : HistRecord → Nat
  | .shot _ => 1 | .chargeReject _ => 2 | .heatTrip _ => 3

/-- Flush 0, port read 1, settings save 2, history format 3 (R166). -/
def LinkOp.code : LinkOp → Nat
  | .flushProgram | .sectorErase _ | .sectorHeader _ => 0
  | .portRead _ _ => 1
  | .settingsErase _ | .settingsProgram _ => 2
  | .format _ => 3

/-- IDLE 0, WAITING 1, FETCHED 2 (R174). -/
def ReadState.code : ReadState → Nat
  | .idle => 0 | .waiting => 1 | .fetched _ => 2

def State.readFields (s : State) (p : Port) : List Byte :=
  flag (s.port p).cursorValid ++ u32 (s.port p).cursor ++ u8 (s.port p).read.code

/-- The history status (R177). The ring size takes the two bytes that section 12.8 gives it in a format (DEDUCED, log 46). -/
def State.historyPayload (s : State) : List Byte :=
  let h := s.history
  u8 h.memory.code ++ opt 1 h.cause (fun c => u8 c.code) ++ u16 h.sectors ++ opt 2 h.ringSize u16
    ++ u32 h.oldest ++ u32 h.head ++ u16 h.writeSlot ++ u32 h.oldestIndex ++ u32 h.nextIndex ++ u32 h.torn
    ++ u8 s.depth ++ u8 (urgency s.depth).code ++ u16 s.commit.dropped
    ++ counted (s.commit.records.map (fun r => u8 r.kind))
    ++ opt 1 s.link.op (fun op => u8 op.code)
    ++ flag (h.format.any (fun f => !f.granted)) ++ flag (s.recipes.save.any (fun r => !r.granted))
    ++ u8 (maskOf (fun p => p.num - 1) (Port.all.filter (fun p => (s.port p).read == .waiting)))
    ++ (Port.all.map s.readFields).flatten

/-- HISTORY_STATUS (R177). -/
def execHistoryStatus (p : Port) (payload : List Byte) (s : State) : Outcome :=
  .next (s.request Summary.historyStatus p payload (fun s => accept .ok s.historyPayload s))

end Sys2Proof.Machine
end

