-- ==== Sys2Proof/Machine/Thermal.lean ====
section
/-! DEFINITION. The Thermal Front End (chapter 3): samples, the one-second value, trim codes. -/

namespace Sys2Proof.Machine

/-- The sample a reading gives (R34, R35): OPEN before OVERRANGE before VALID; a valid reading, 0 when below 0, is
corrected by five times the trim code and clamped to 0 to 4000. -/
def classify (trim : Int) : Reading → Sample
  | .broken => .openCircuit
  | .level t => if 4000 < t then .overrange else .valid (clampInt 0 4000 (max 0 t + 5 * trim)).toNat

/-- A history of at most four samples takes a new one as its newest (R37). -/
def pushSample (history : List Sample) (x : Sample) : List Sample :=
  if history.length < 4 then history ++ [x] else history.drop (history.length - 3) ++ [x]

/-- The temperature of a VALID sample. -/
def Sample.temperature? : Sample → Option Nat
  | .valid t => some t
  | _ => none

/-- The invalid cause a sample names, none when it is VALID (R39). -/
def Sample.cause? : Sample → Option Cause
  | .openCircuit => some .openCircuit
  | .overrange => some .overrange
  | .valid _ => none

/-- The one-second value of a history (R38, R39): the truncated mean of at least three VALID temperatures, otherwise
invalid with the kind of the newest sample that is not VALID. -/
def secondValue (history : List Sample) : SecondValue :=
  let temps := history.filterMap Sample.temperature?
  if 3 ≤ temps.length then .valid (temps.sum / temps.length)
  else .invalid (((history.filterMap Sample.cause?).getLast?).getD .openCircuit)

/-- A channel takes the sample of the period that ends (R34 to R37). -/
def Channel.take (reading : Reading) (c : Channel) : Channel :=
  { c with history := pushSample c.history (classify c.trim reading) }

/-- A channel forms its one-second value (R38) from the four samples of its history (R37). -/
def Channel.form (c : Channel) : Channel :=
  if c.history.length = 4 then { c with value := secondValue c.history, formed := true } else c

/-- The place in the time base after a sample period (R33): every fourth period end is a second boundary. A second whose
boundary was not taken is over with the next period (log 31). -/
def nextPeriod (periods : Nat) : Nat := if periods < Config.secondPeriods then periods + 1 else 1

/-- SAMPLE_COMPLETE (R33 to R37): a sample period ends, and each channel takes its sample. -/
def execSampleComplete (inputs : Ten Reading) (s : State) : Outcome :=
  .next { s with
    channels := Ten.tabulate (fun z => (s.channel z).take (inputs.get z)), periods := nextPeriod s.periods }

/-- The window clock counts a second boundary (R47); a window start that is due stays due (log 53). -/
def Window.countSecond (w : Window) : Window := { w with untilStart := w.untilStart - 1 }

/-- SECOND_BOUNDARY (R33, R38, R47): at the end of the fourth sample period each channel forms its one-second value, and the
window clock counts; at another moment there is no boundary and nothing changes (DEDUCED, log 31). -/
def execSecondBoundary (s : State) : Outcome :=
  .next
    (if s.periods = Config.secondPeriods then
      { s with channels := s.channels.map Channel.form, periods := 0, window := s.window.countSecond }
    else s)

/-- A trim write (R36). -/
def trimWriteBody (payload : List Byte) (z : Zone) (s : State) : Reply :=
  let written := signedField payload 1 1
  let trim := clampInt (-8) 7 written
  accept (okOrClamped (trim != written)) [] (s.modChannel z (fun c => { c with trim := trim })).settingsChanged

/-- TRIM_WRITE (R36). -/
def execTrimWrite (p : Port) (payload : List Byte) (s : State) : Outcome :=
  .next (s.request Summary.trimWrite p payload (onZone payload (trimWriteBody payload)))

end Sys2Proof.Machine
end

