-- ==== Sys2Proof/Machine/Dispatch.lean ====
section
/-! DEFINITION. The meaning of every command of the opcode table: one arm per constructor, each one direct call. -/

namespace Sys2Proof.Machine

def exec (i : Instr) (s : State) : Host.Outcome State Fault Refusal :=
  match i with
  | .deviceReset straps memory => Sys2Proof.Machine.execDeviceReset straps memory s
  | .rawLevelChange line asserted => Sys2Proof.Machine.execRawLevelChange line asserted s
  | .debouncedLevelChange expired => Sys2Proof.Machine.execDebouncedLevelChange expired s
  | .qualificationExpiry => Sys2Proof.Machine.execQualificationExpiry s
  | .sampleComplete inputs => Sys2Proof.Machine.execSampleComplete inputs s
  | .secondBoundary => Sys2Proof.Machine.execSecondBoundary s
  | .perSecondTest => Sys2Proof.Machine.execPerSecondTest s
  | .perSecondAccounting => Sys2Proof.Machine.execPerSecondAccounting s
  | .clockSecond => Sys2Proof.Machine.execClockSecond s
  | .chargeQueueExpiry => Sys2Proof.Machine.execChargeQueueExpiry s
  | .windowStart => Sys2Proof.Machine.execWindowStart s
  | .heaterOnTimeEnd zone => Sys2Proof.Machine.execHeaterOnTimeEnd zone s
  | .permitLapse daylight => Sys2Proof.Machine.execPermitLapse daylight s
  | .sampleArrival raw saturated => Sys2Proof.Machine.execSampleArrival raw saturated s
  | .tareTimerExpiry => Sys2Proof.Machine.execTareTimerExpiry s
  | .gapTimerExpiry => Sys2Proof.Machine.execGapTimerExpiry s
  | .recoveryTimerExpiry => Sys2Proof.Machine.execRecoveryTimerExpiry s
  | .scaleZeroDone => Sys2Proof.Machine.execScaleZeroDone s
  | .scaleSpanDone => Sys2Proof.Machine.execScaleSpanDone s
  | .strokeTimerExpiry daylight => Sys2Proof.Machine.execStrokeTimerExpiry daylight s
  | .returnTimerExpiry daylight => Sys2Proof.Machine.execReturnTimerExpiry daylight s
  | .ejectorTestTimerExpiry daylight => Sys2Proof.Machine.execEjectorTestTimerExpiry daylight s
  | .linkArbitration => Sys2Proof.Machine.execLinkArbitration s
  | .flushProgramDone equal => Sys2Proof.Machine.execFlushProgramDone equal s
  | .sectorEraseDone => Sys2Proof.Machine.execSectorEraseDone s
  | .sectorHeaderDone equal => Sys2Proof.Machine.execSectorHeaderDone equal s
  | .settingsEraseDone => Sys2Proof.Machine.execSettingsEraseDone s
  | .settingsSaveDone equal => Sys2Proof.Machine.execSettingsSaveDone equal s
  | .formatStepDone equal => Sys2Proof.Machine.execFormatStepDone equal s
  | .portReadDone => Sys2Proof.Machine.execPortReadDone s
  | .flashStepTimeout => Sys2Proof.Machine.execFlashStepTimeout s
  | .chipSelectDeassert port => Sys2Proof.Machine.execChipSelectDeassert port s
  | .frameError port kind => Sys2Proof.Machine.execFrameError port kind s
  | .unknownCommand port code => Sys2Proof.Machine.execUnknownCommand port code s
  | .daylightStatus port payload => Sys2Proof.Machine.execDaylightStatus port payload s
  | .lineStatus port payload => Sys2Proof.Machine.execLineStatus port payload s
  | .zoneStatus port payload => Sys2Proof.Machine.execZoneStatus port payload s
  | .channelRead port payload => Sys2Proof.Machine.execChannelRead port payload s
  | .zoneControlRead port payload => Sys2Proof.Machine.execZoneControlRead port payload s
  | .budgetStatus port payload => Sys2Proof.Machine.execBudgetStatus port payload s
  | .tripStatus port payload => Sys2Proof.Machine.execTripStatus port payload s
  | .cureStatus port payload => Sys2Proof.Machine.execCureStatus port payload s
  | .scaleStatus port payload => Sys2Proof.Machine.execScaleStatus port payload s
  | .chargeStatus port payload => Sys2Proof.Machine.execChargeStatus port payload s
  | .demouldStatus port payload => Sys2Proof.Machine.execDemouldStatus port payload s
  | .recipeRead port payload => Sys2Proof.Machine.execRecipeRead port payload s
  | .recipeStatus port payload => Sys2Proof.Machine.execRecipeStatus port payload s
  | .settingsStatus port payload => Sys2Proof.Machine.execSettingsStatus port payload s
  | .historyStatus port payload => Sys2Proof.Machine.execHistoryStatus port payload s
  | .historyOpen port payload => Sys2Proof.Machine.execHistoryOpen port payload s
  | .historyNext port payload => Sys2Proof.Machine.execHistoryNext port payload s
  | .noticeRead port payload => Sys2Proof.Machine.execNoticeRead port payload s
  | .noticeMaskWrite port payload => Sys2Proof.Machine.execNoticeMaskWrite port payload s
  | .operationResult port payload => Sys2Proof.Machine.execOperationResult port payload s
  | .clockRead port payload => Sys2Proof.Machine.execClockRead port payload s
  | .portRestart port payload => Sys2Proof.Machine.execPortRestart port payload s
  | .portStatus port payload => Sys2Proof.Machine.execPortStatus port payload s
  | .declare port payload => Sys2Proof.Machine.execDeclare port payload s
  | .cureStart port payload => Sys2Proof.Machine.execCureStart port payload s
  | .demouldRequest port payload => Sys2Proof.Machine.execDemouldRequest port payload s
  | .ejectorTest port payload => Sys2Proof.Machine.execEjectorTest port payload s
  | .tripClear port payload => Sys2Proof.Machine.execTripClear port payload s
  | .loadRequest port payload => Sys2Proof.Machine.execLoadRequest port payload s
  | .loadDone port payload => Sys2Proof.Machine.execLoadDone port payload s
  | .loadCancel port payload => Sys2Proof.Machine.execLoadCancel port payload s
  | .takeoutDone port payload => Sys2Proof.Machine.execTakeoutDone port payload s
  | .chargeBegin port payload => Sys2Proof.Machine.execChargeBegin port payload s
  | .chargeAbort port payload => Sys2Proof.Machine.execChargeAbort port payload s
  | .chargeDiscard port payload => Sys2Proof.Machine.execChargeDiscard port payload s
  | .forceRelease port payload => Sys2Proof.Machine.execForceRelease port payload s
  | .trimWrite port payload => Sys2Proof.Machine.execTrimWrite port payload s
  | .windowLengthSet port payload => Sys2Proof.Machine.execWindowLengthSet port payload s
  | .zoneModeSet port payload => Sys2Proof.Machine.execZoneModeSet port payload s
  | .manualDutyWrite port payload => Sys2Proof.Machine.execManualDutyWrite port payload s
  | .budgetSet port payload => Sys2Proof.Machine.execBudgetSet port payload s
  | .loadWeightWrite port payload => Sys2Proof.Machine.execLoadWeightWrite port payload s
  | .gainsWrite port payload => Sys2Proof.Machine.execGainsWrite port payload s
  | .tripKindSet port payload => Sys2Proof.Machine.execTripKindSet port payload s
  | .stabilityBandWrite port payload => Sys2Proof.Machine.execStabilityBandWrite port payload s
  | .scaleZero port payload => Sys2Proof.Machine.execScaleZero port payload s
  | .scaleSpan port payload => Sys2Proof.Machine.execScaleSpan port payload s
  | .hydraulicSlotCountWrite port payload => Sys2Proof.Machine.execHydraulicSlotCountWrite port payload s
  | .recipeWrite port payload => Sys2Proof.Machine.execRecipeWrite port payload s
  | .recipeActivate port payload => Sys2Proof.Machine.execRecipeActivate port payload s
  | .recipeClear port payload => Sys2Proof.Machine.execRecipeClear port payload s
  | .permitTimeWrite port payload => Sys2Proof.Machine.execPermitTimeWrite port payload s
  | .settingsSave port payload => Sys2Proof.Machine.execSettingsSave port payload s
  | .historyFormat port payload => Sys2Proof.Machine.execHistoryFormat port payload s
  | .drain port payload => Sys2Proof.Machine.execDrain port payload s
  | .clockSet port payload => Sys2Proof.Machine.execClockSet port payload s
  | .chipSelectAssert port => Sys2Proof.Machine.execChipSelectAssert port s

end Sys2Proof.Machine
end

