-- ==== Sys2Proof/Machine/Tick.lean ====
section
/-! DEFINITION. What a step does on an empty queue: one millisecond passes (DESIGN CHOICE, log 2). Every running timer counts
down, the window phase counts up to the last millisecond of the window, and the command of each timer that runs out joins the queue (log 3). -/

namespace Sys2Proof.Machine

/-- A timer counts down. -/
def countDown (t : Option Nat) : Option Nat := t.map (· - 1)

/-- A timer runs out in this millisecond. -/
def runsOut (t : Option Nat) : Bool := t.any (· ≤ 1)

/-- A command that is due under a condition. -/
def dueWhen (b : Bool) (c : Instr) : List Instr := if b then [c] else []

/-! ## The commands that become due (log 3) -/

/-- The lines whose debounce intervals end in this millisecond (R24). -/
def State.dueLines (s : State) : List Line := Line.all.filter (fun l => runsOut (s.lines.line.get l).interval)

/-- The timers of one daylight: permit, stroke or return, ejector test (R6, R136, R137, R141). -/
def State.dueAt (s : State) (d : Daylight) : List Instr :=
  let e := s.ejector d
  dueWhen (runsOut (s.entry d).permit) (.permitLapse d)
    ++ dueWhen (runsOut e.timer && e.phase == .forward) (.strokeTimerExpiry d)
    ++ dueWhen (runsOut e.timer && e.phase == .retract) (.returnTimerExpiry d)
    ++ dueWhen (runsOut (e.test.bind (·.timer))) (.ejectorTestTimerExpiry d)

/-- The 80th sample of a calibration has been taken (R105). -/
def State.dueCalibration (s : State) : List Instr :=
  match s.weigh.cal with
  | none => []
  | some c =>
    dueWhen (c.samples == Config.calSamples)
      (match c.kind with
      | .zeroing => .scaleZeroDone
      | .spanning _ _ => .scaleSpanDone)

/-- The Memory Link is idle and has a candidate (R166). -/
def State.linkWaits (s : State) : Bool :=
  s.link.op.isNone &&
    (s.history.format.isSome || s.recipes.save.isSome
      || (s.history.memory == .ready && !s.commit.records.isEmpty)
      || Port.all.any (fun p => (s.port p).read == .waiting))

/-- The zones whose on-time, shorter than the window, ends in this millisecond (R63). -/
def State.dueOutputs (s : State) : List Instr :=
  (Zone.all.filter (fun z =>
    s.window.onTime.get z == s.window.phase + 1 && decide (s.window.onTime.get z < s.window.length * 1000))).map
    .heaterOnTimeEnd

/-- Every command that becomes due in this millisecond. -/
def State.due (s : State) : List Instr :=
  dueWhen (!s.dueLines.isEmpty) (.debouncedLevelChange s.dueLines)
    ++ dueWhen (runsOut s.lines.qualify) .qualificationExpiry
    ++ dueWhen (runsOut s.builder.tareTimer) .tareTimerExpiry
    ++ dueWhen (runsOut s.builder.gapTimer) .gapTimerExpiry
    ++ dueWhen (runsOut s.builder.recoveryTimer) .recoveryTimerExpiry
    ++ Daylight.all.flatMap s.dueAt ++ s.dueOutputs
    ++ dueWhen s.window.startDue .windowStart ++ s.dueCalibration
    ++ dueWhen (runsOut s.link.left) .flashStepTimeout
    ++ dueWhen s.linkWaits .linkArbitration

/-! ## The millisecond -/

def LineState.tick (x : LineState) : LineState := { x with interval := countDown x.interval }

def Ejector.tick (e : Ejector) : Ejector :=
  { e with timer := countDown e.timer, test := e.test.map (fun t => { t with timer := countDown t.timer }) }

/-- The timers after a millisecond, and the ports after the bytes that their stations clocked in it (log 13). -/
def State.timers (s : State) : State :=
  { s with
    lines := { s.lines with line := s.lines.line.map LineState.tick, qualify := countDown s.lines.qualify }
    window := { s.window with phase := max s.window.phase (min (s.window.phase + 1) (s.window.length * 1000 - 1)) }
    builder :=
      { s.builder with
        tareTimer := countDown s.builder.tareTimer, gapTimer := countDown s.builder.gapTimer
        recoveryTimer := countDown s.builder.recoveryTimer }
    board := { s.board with entries := s.board.entries.map (fun e => { e with permit := countDown e.permit }) }
    demould := { s.demould with ejectors := s.demould.ejectors.map Ejector.tick }
    link := { s.link with left := countDown s.link.left }
    ports := ⟨s.clockedPort .p1, s.clockedPort .p2, s.clockedPort .p3⟩
    free := s.free + 1 }

/-- One millisecond passes, and the commands that become due wait in the queue. -/
def State.tick (s : State) : State := { s.timers with pending := s.pending ++ s.due }

end Sys2Proof.Machine
end

