-- ==== Sys2Proof/WellFormed.lean ====
section
/-! DEFINITION. Which commands can arrive: the limits that the manual puts on what a request or an event carries. -/

namespace Sys2Proof

open Sys2Proof.Machine

/-- A request's length byte is at most 192 (R180). -/
def payloadWf (payload : List Byte) : Bool := decide (payload.length ≤ 192)

/-- A raw sample is a signed count from −8388608 to 8388607; a saturated one carries an end value (R99). -/
def rawWf (raw : Int) (saturated : Bool) : Bool :=
  decide (-8388608 ≤ raw ∧ raw ≤ 8388607) && (!saturated || decide (raw = -8388608 ∨ raw = 8388607))

/-- The lines whose debounce intervals end at one moment: at least one, none twice (R24). -/
def linesWf (lines : List Line) : Bool := !lines.isEmpty && decide lines.Nodup

/-- A code is not in the command summary (R180). -/
def unknownCode (code : Byte) : Bool := Summary.rows.all (fun r => r.code != code.toNat)

/-- A command that can arrive. -/
def Instr.wf : Instr → Bool
  | .debouncedLevelChange expired => linesWf expired
  | .sampleArrival raw saturated => rawWf raw saturated
  | .unknownCommand _ code => unknownCode code
  | .deviceReset _ _ | .rawLevelChange _ _ | .qualificationExpiry | .sampleComplete _ | .secondBoundary
  | .perSecondTest | .perSecondAccounting | .clockSecond | .chargeQueueExpiry | .windowStart | .heaterOnTimeEnd _
  | .permitLapse _ | .tareTimerExpiry | .gapTimerExpiry | .recoveryTimerExpiry | .scaleZeroDone | .scaleSpanDone
  | .strokeTimerExpiry _ | .returnTimerExpiry _ | .ejectorTestTimerExpiry _ | .linkArbitration | .flushProgramDone _
  | .sectorEraseDone | .sectorHeaderDone _ | .settingsEraseDone | .settingsSaveDone _ | .formatStepDone _
  | .portReadDone | .flashStepTimeout | .chipSelectDeassert _ | .frameError _ _ | .chipSelectAssert _ => true
  | .daylightStatus _ b | .lineStatus _ b | .zoneStatus _ b | .channelRead _ b | .zoneControlRead _ b
  | .budgetStatus _ b | .tripStatus _ b | .cureStatus _ b | .scaleStatus _ b | .chargeStatus _ b | .demouldStatus _ b
  | .recipeRead _ b | .recipeStatus _ b | .settingsStatus _ b | .historyStatus _ b | .historyOpen _ b | .historyNext _ b
  | .noticeRead _ b | .noticeMaskWrite _ b | .operationResult _ b | .clockRead _ b | .portRestart _ b | .portStatus _ b
  | .declare _ b | .cureStart _ b | .demouldRequest _ b | .ejectorTest _ b | .tripClear _ b | .loadRequest _ b
  | .loadDone _ b | .loadCancel _ b | .takeoutDone _ b | .chargeBegin _ b | .chargeAbort _ b | .chargeDiscard _ b
  | .forceRelease _ b | .trimWrite _ b | .windowLengthSet _ b | .zoneModeSet _ b | .manualDutyWrite _ b
  | .budgetSet _ b | .loadWeightWrite _ b | .gainsWrite _ b | .tripKindSet _ b | .stabilityBandWrite _ b
  | .scaleZero _ b | .scaleSpan _ b | .hydraulicSlotCountWrite _ b | .recipeWrite _ b | .recipeActivate _ b
  | .recipeClear _ b | .permitTimeWrite _ b | .settingsSave _ b | .historyFormat _ b | .drain _ b | .clockSet _ b =>
    payloadWf b

end Sys2Proof
end

