-- ==== Sys2Proof/Safety.lean ====
section
/-! DEFINITION. What counts as a safe state and a safe step, in the terms that claims use: the blocks of the state and what a
command leaves alone, and the invariants that the manual states in bold or as ranges. -/

namespace Sys2Proof.Machine

/-! ## Frames -/

/-- The blocks of the state. -/
inductive Block
  | clock | lines | channels | periods | zones | budget | window | trips | cure | weigh | builder | queue | board | demould
  | arbiter | recipes | commit | history | link | flash | ports | nextOp | free | pending
deriving DecidableEq, Repr

/-- A block is the same in two states. -/
def Block.same (s t : State) : Block → Prop
  | .clock => t.clock = s.clock
  | .lines => t.lines = s.lines
  | .channels => t.channels = s.channels
  | .periods => t.periods = s.periods
  | .zones => t.zones = s.zones
  | .budget => t.budget = s.budget
  | .window => t.window = s.window
  | .trips => t.trips = s.trips
  | .cure => t.cure = s.cure
  | .weigh => t.weigh = s.weigh
  | .builder => t.builder = s.builder
  | .queue => t.queue = s.queue
  | .board => t.board = s.board
  | .demould => t.demould = s.demould
  | .arbiter => t.arbiter = s.arbiter
  | .recipes => t.recipes = s.recipes
  | .commit => t.commit = s.commit
  | .history => t.history = s.history
  | .link => t.link = s.link
  | .flash => t.flash = s.flash
  | .ports => t.ports = s.ports
  | .nextOp => t.nextOp = s.nextOp
  | .free => t.free = s.free
  | .pending => t.pending = s.pending

/-- Every block but those listed is the same. -/
def Frame (changed : List Block) (s t : State) : Prop := ∀ b, b ∉ changed → Block.same s t b

/-- Every port but one is the same. -/
def OtherPorts (p : Port) (s t : State) : Prop := ∀ q, q ≠ p → t.port q = s.port q

/-- Every port has at most new notices: everything else of it is the same. -/
def OnlyNotices (s t : State) : Prop := ∀ p, t.port p = { s.port p with notices := (t.port p).notices }

/-- A kind is set in the notice set of every port whose role is not OFF (R184). -/
def Raised (k : Notice) (t : State) : Prop := ∀ p, (t.port p).role ≠ .off → (t.port p).notices &&& k.word = k.word

/-! ## Requests -/

/-- A request is taken at a port: the port is in REQUEST, its role may make the request, the payload has the length of the
summary (R179, R180). -/
def Taken (row : Row) (p : Port) (payload : List Byte) (s : State) : Prop :=
  (s.port p).recv = .request ∧ (s.port p).role ∈ row.roles ∧ payload.length = row.length

/-- The state with a port in WORKING and a response for it. -/
def State.answered (p : Port) (r : Response) (s : State) : State :=
  { s with ports := s.ports.set p { s.port p with recv := .working, response := some r } }

/-- What an answered request leaves of the ports: port p is WORKING with the response, every other port as it was; any port
may have new notices. -/
def Answered (p : Port) (r : Response) (s t : State) : Prop :=
  ∀ q, t.port q = { s.port q with
    notices := (t.port q).notices
    recv := if q = p then .working else (s.port q).recv
    response := if q = p then some r else (s.port q).response }

/-- Exactly these kinds are raised: set in the notice set of every port whose role is not OFF, and in no other (R179, R184). -/
def Notified (kinds : List Notice) (s t : State) : Prop :=
  ∀ p, (t.port p).notices =
    if (s.port p).role = .off then (s.port p).notices else kinds.foldl (fun w k => w ||| k.word) (s.port p).notices

/-- Every daylight entry but one is the same, and so are the next shot number and the permit time. -/
def OtherEntries (d : Daylight) (s t : State) : Prop :=
  (∀ e, e ≠ d → t.entry e = s.entry e) ∧ t.board.nextShot = s.board.nextShot ∧ t.board.permitTime = s.board.permitTime

/-- What the offer of a CHARGE_REJECT or HEAT_TRIP record does (R160): at depth 7 or less it is appended; above, the dropped
count rises, saturating, and DROPPED is raised. -/
def Offered (r : HistRecord) (s t : State) : Prop :=
  (s.depth ≤ 7 → t.commit = { s.commit with records := s.commit.records ++ [r] }) ∧
    (7 < s.depth → t.commit = { s.commit with dropped := min 65535 (s.commit.dropped + 1) } ∧ Raised .dropped t)

/-- How a charge in progress leaves the builder b (R121 to R124): IDLE with every timer stopped and its outcome, CHARGE_DONE
raised; a rejected one is offered with its reason and the time, an accepted one joins the Charge Queue with age 0. -/
def ChargeEnds (rejected : Option RejectReason) (b : Builder) (c : ChargeInProgress) (variant : Option Variant)
    (drift : Option Int) (life : Nat) (s t : State) : Prop :=
  let record : ChargeRecord :=
    { number := c.number, daylight := c.daylight, slot := c.slot, version := c.version, variant := variant,
      pieces := b.pieces.map (·.weight), total := (b.pieces.map (·.weight)).sum, tare := b.tare, drift := drift,
      wrongCount := b.wrongCount, start := c.start, accept := none, expiry := none, reason := none, rejectTime := none }
  t.builder = { b with
      state := .idle, charge := none, waiting := none, recovery := none, tareTimer := none, gapTimer := none,
      recoveryTimer := none, last := some ⟨c.number, rejected⟩ } ∧
    Raised .chargeDone t ∧
    match rejected with
    | some reason =>
      t.queue = s.queue ∧ Offered (.chargeReject { record with reason := some reason, rejectTime := some s.stamp }) s t
    | none =>
      t.commit = s.commit ∧ t.queue = s.queue ++
        [{ record := { record with accept := some s.stamp, expiry := some (s.stamp.after life) }, age := 0, life := life }]

/-- The judgement of a charge that completes with variant w, b being the builder before it (R121): TOTAL outside the band,
DRIFT past the limit, otherwise accepted. -/
def Judged (l : LayupFields) (b : Builder) (c : ChargeInProgress) (w : Variant) (s t : State) : Prop :=
  let total : Int := (b.pieces.map (·.weight)).sum
  let drift : Int := b.latest.getD 0 - b.tare.getD 0 - total
  let rejected : Option RejectReason :=
    if total < l.bandMin ∨ (l.bandMax : Int) < total then some .total
    else if l.driftLimit < drift.natAbs then some .drift else none
  ChargeEnds rejected b c (some w) (some drift) l.life s t

/-- The result of a long operation is delivered to the port that requested it (R183): a slot RUNNING with its identity becomes
DONE with the result and OP_DONE is raised; every other slot stays. -/
def Delivered (p : Port) (op : Nat) (status : Status) (data : List Byte) (s t : State) : Prop :=
  (∀ q, t.port q = { s.port q with
    notices := (t.port q).notices
    slot := match (s.port q).slot with
      | .running kind op' => if q = p ∧ op' = op then .done kind status data else .running kind op'
      | x => x }) ∧
    ∀ kind, (s.port p).slot = .running kind op → Raised .opDone t

/-- The state with a long operation accepted at a port (R183): the port WORKING with the answer IN_PROGRESS, its slot RUNNING
with the next identity, which is used up. -/
def State.began (p : Port) (kind : OpKind) (s : State) : State :=
  { s with
    nextOp := s.nextOp + 1
    ports := s.ports.set p { s.port p with
      recv := .working, response := some ⟨.inProgress, 0, []⟩, slot := .running kind s.nextOp } }

/-- No copy and no selection waits for the cell to be idle. -/
def State.nothingWaits (s : State) : Prop := s.recipes.copy = none ∧ s.recipes.selection = none

/-- What the cell does with a pending copy and a pending selection at the end of a command that moves a daylight, the builder
or the Charge Queue (R149, R151, R153, R155): while the cell is not idle, or nothing waits, the recipes stay. Otherwise the copy
replaces the record of the active slot, whose version rises by one; then the selection becomes the active slot, with heat
revision 0; neither waits any more, RECIPE_APPLIED is raised and SETTINGS_CHANGED is set. That this happens at the end of the
command is DEDUCED (log 30). -/
def State.AppliedAtIdle (s t : State) : Prop :=
  (t.cellIdle = false ∨ s.nothingWaits → t.recipes = s.recipes) ∧
    (t.cellIdle = true → ¬ s.nothingWaits → Raised .recipeApplied t ∧
      t.recipes = { s.recipes with
        slots := (match s.recipes.copy, s.recipes.active with
          | some c, some k => s.recipes.slots.set k { record := some c.record, version := (s.slotVersion k + 1) % 65536 }
          | _, _ => s.recipes.slots)
        copy := none, selection := none, changed := true, active := s.recipes.selection.getD s.recipes.active
        heatRevision := if s.recipes.selection.isSome then 0 else s.recipes.heatRevision })

/-! ## Offers of SHOT records -/

/-- What the offer passes after an event do, u being the state that the event leaves (R16, R160): the records of some AWAIT_COMMIT
daylights are admitted in the order of their numbers, each once no other shot on the board has a number as low; the first takes
the dropped count, which becomes 0, and each such daylight becomes EMPTY, with DAYLIGHT raised. The passes end when the queue is
full or no daylight qualifies, and every other entry stays. -/
def State.OffersMade (u t : State) : Prop :=
  ∃ ds : List (Daylight × Shot),
    (∀ x ∈ ds, (u.entry x.1).state = .awaitCommit ∧ (u.entry x.1).shot = some x.2) ∧
    ds.Pairwise (fun x y => x.2.number < y.2.number) ∧
    (∀ x ∈ ds, ∀ e m, u.shotNumber e = some m → m ≤ x.2.number → ∃ y ∈ ds, y.1 = e) ∧
    t.commit = (match ds with
      | [] => u.commit
      | x :: rest => {
          records := u.commit.records ++ .shot { x.2 with dropped := u.commit.dropped }
            :: rest.map (fun y => .shot { y.2 with dropped := 0 })
          dropped := 0 }) ∧
    (∀ d, t.entry d = if d ∈ ds.map (·.1) then { u.entry d with state := .vacant, shot := none } else u.entry d) ∧
    t.board.nextShot = u.board.nextShot ∧ t.board.permitTime = u.board.permitTime ∧ (ds ≠ [] → Raised .daylight t) ∧
    (12 ≤ t.depth ∨ t.offerTarget = none)

/-- The condition of COMMIT_BLOCKED (R17): the Commit Queue holds 12 records, and some AWAIT_COMMIT daylight has a shot number
lower than that of every other shot on the board. -/
def State.blocks (s : State) : Prop :=
  s.depth = 12 ∧ ∃ d n, (s.entry d).state = .awaitCommit ∧ s.shotNumber d = some n ∧
    ∀ e m, e ≠ d → s.shotNumber e = some m → n < m

/-- COMMIT_BLOCKED is raised at the onset of its condition, and its bit stays as it is otherwise (R17). A condition that holds
before and after a command has no onset in it (DEDUCED, log 49). -/
def BlockedReported (s t : State) : Prop :=
  (t.blocks → ¬ s.blocks → Raised .commitBlocked t) ∧
    (¬ t.blocks ∨ s.blocks → ∀ p, (t.port p).notices.getLsbD 11 = (s.port p).notices.getLsbD 11)

/-! ## The Line Monitor -/

/-- Interpreted levels, mode, faults and heat hold as R25 to R30 form them from the debounced levels, `src l` being the
debounced level of line l or its reset interpretation while it has none. -/
def State.Interpreted (src : Line → Bool) (t : State) : Prop :=
  t.level .mouldClosed = (src .mouldClosed && !src .mouldOpen) ∧
    t.level .mouldOpen = (src .mouldOpen && !src .mouldClosed) ∧
    (∀ d, t.level (.ejectFwd d) = (src (.ejectFwd d) && !src (.ejectHome d))) ∧
    (∀ d, t.level (.ejectHome d) = (src (.ejectHome d) && !src (.ejectFwd d))) ∧
    t.level .heatInhibit = src .heatInhibit ∧ t.level .modeA = src .modeA ∧ t.level .modeB = src .modeB ∧
    t.lines.mode = (if src .modeB then (if src .modeA then .run else .setup) else .stop) ∧
    t.lines.faults.modeIllegal = (src .modeA && !src .modeB) ∧
    t.lines.faults.mouldPair = (src .mouldClosed && src .mouldOpen) ∧
    (∀ d, t.lines.faults.ejectPair.get d = (src (.ejectFwd d) && src (.ejectHome d))) ∧
    t.lines.hold.stop = decide (t.lines.mode = .stop) ∧ t.lines.hold.inhibit = src .heatInhibit

/-- A level notice and the heat hold are reported at their onset, which cuts every heater output for the rest of the window
(R29, R30, R64); without an onset the Window Generator is left alone. -/
def OnsetsReported (s t : State) : Prop :=
  (t.heatHold = true → s.heatHold = false → (∀ z, t.window.cut.get z = true) ∧ Raised .heatHold t) ∧
    ((t.heatHold = true → s.heatHold = true) → t.window = s.window) ∧
    (t.lines.faults.any = true → s.lines.faults.any = false → Raised .lineFault t)

/-- The Ejector Arbiter's grants (R135, R136, R141), from s to t: with `rest` the holders that keep their slots and `waiting` the
daylights that wait, old and new, the slots that are free go to the lowest-numbered waiting daylights, and the others wait on.
One that is served enters FORWARD, of its sequence (attempt and stroke timer) or of its test, or RETURN at once where EJECT_FWD
is asserted. With no active recipe, which no sequence meets, the eject limit is 20 s (log 25). -/
def State.SlotsHandedOver (rest waiting : Daylight → Bool) (s t : State) : Prop :=
  let limit : Nat := s.activeRecipe.elim 20 (·.eject) * 1000
  let free : Nat := t.arbiter.count - (Daylight.all.filter rest).length
  let served (d : Daylight) : Bool :=
    waiting d && decide ((Daylight.all.filter (fun e => waiting e && decide (e.num < d.num))).length < free)
  ∀ d,
    t.holds d = (rest d || served d) ∧ t.waits d = (waiting d && !served d) ∧
    (waiting d = true → (s.ejector d).phase ∈ [.waitOpen, .waitSlot] →
      (served d = true →
        t.ejector d = { s.ejector d with
          phase := if t.level (.ejectFwd d) then .retract else .forward, attempt := (s.ejector d).attempt + 1
          failed := false, timer := some limit, valve := !(t.level (.ejectFwd d)) } ∧
        t.entry d = { s.entry d with shot := (s.entry d).shot.map (fun x => { x with
          attempts := (s.ejector d).attempt + 1, strokeFailed := false }) }) ∧
      (served d = false → t.ejector d = { s.ejector d with phase := .waitSlot } ∧ t.entry d = s.entry d)) ∧
    (waiting d = true → ∀ x, (s.ejector d).test = some x → t.entry d = s.entry d ∧
      (served d = true → t.ejector d = { s.ejector d with
        valve := !(t.level (.ejectFwd d))
        test := some { x with
          phase := if t.level (.ejectFwd d) then .retract else .forward, timer := some (x.limit * 1000) } }) ∧
      (served d = false → t.ejector d = s.ejector d))

/-- No daylight waits for a slot while a configured slot is free (R131, R135). -/
def State.slotsKept (s : State) : Prop := (∃ d, s.waits d = true) → s.arbiter.count ≤ s.arbiter.held

/-- What the ejectors do at one report of the press lines, from s to t (R134 to R139, R141, R142): a mould that is no longer
open, or STOP, aborts the sequences that have started, and the first, or leaving SETUP, every test; a cylinder that arrives
forward is returned; one that arrives home ends its sequence or test, but makes its second attempt after a failed first;
sequences that wait for the mould to open join the waiting set once it is open outside STOP; and the slots given back go to the
lowest-numbered cylinders that wait. With no active recipe, which no sequence meets, the eject limit is 20 s (log 25). -/
def State.EjectorsReported (s t : State) : Prop :=
  let rose (l : Line) : Bool := t.level l && !s.level l
  let closing : Bool := s.level .mouldOpen && !t.level .mouldOpen
  let stopping : Bool := decide (t.lines.mode = .stop ∧ s.lines.mode ≠ .stop)
  let unset : Bool := decide (s.lines.mode = .setup ∧ t.lines.mode ≠ .setup)
  let quiet : Bool := Daylight.all.all (fun d => !rose (.ejectFwd d) && !rose (.ejectHome d))
  let limit : Nat := s.activeRecipe.elim 20 (·.eject) * 1000
  let ended (d : Daylight) (shot : Shot → Shot) : Prop :=
    t.ejector d = { s.ejector d with phase := .idle, timer := none, valve := false } ∧ t.holds d = false ∧
      t.waits d = false ∧ t.entry d = { s.entry d with state := .awaitTakeout, shot := (s.entry d).shot.map shot } ∧
      Raised .daylight t
  (∀ d, (s.ejector d).phase ∈ [.waitSlot, .forward, .retract] → closing = true ∨ stopping = true ∧ quiet = true →
      ended d (fun x => { x with
        outcome := if x.outcome = some .stuck then some .stuck else some .ejectAborted
        notHome := x.notHome || decide (1 ≤ (s.ejector d).attempt ∧ t.level (.ejectHome d) = false) })) ∧
    (∀ d, (s.ejector d).test.isSome = true → closing = true ∨ unset = true ∧ quiet = true →
      t.ejector d = { s.ejector d with test := none, lastTest := some .aborted, valve := false } ∧
        t.holds d = false ∧ t.waits d = false) ∧
    (closing = false → stopping = false → ∀ d,
      ((s.ejector d).phase = .forward → rose (.ejectFwd d) = true →
        t.ejector d = { s.ejector d with phase := .retract, failed := false, timer := some limit, valve := false } ∧
          t.entry d = { s.entry d with shot := (s.entry d).shot.map (fun x => { x with strokeFailed := false }) }) ∧
      ((s.ejector d).phase = .retract → rose (.ejectHome d) = true →
        ((s.ejector d).failed = true → (s.ejector d).attempt = 1 →
          t.ejector d = { s.ejector d with
            phase := .forward, attempt := 2, failed := false, timer := some limit, valve := true } ∧ t.holds d = true ∧
          t.entry d = { s.entry d with shot := (s.entry d).shot.map (fun x => { x with
            attempts := 2, strokeFailed := false }) }) ∧
        (¬ ((s.ejector d).failed = true ∧ (s.ejector d).attempt = 1) → ended d id))) ∧
    (closing = false → unset = false → ∀ d x, (s.ejector d).test = some x →
      (x.phase = .forward → rose (.ejectFwd d) = true → t.ejector d = { s.ejector d with
        valve := false, test := some { x with phase := .retract, timer := some (x.limit * 1000) } }) ∧
      (x.phase = .retract → rose (.ejectHome d) = true →
        t.ejector d = { s.ejector d with test := none, lastTest := some .passed, valve := false } ∧ t.holds d = false)) ∧
    (∀ d, (s.ejector d).phase = .waitOpen →
      (t.level .mouldOpen = true → t.lines.mode ≠ .stop → rose .mouldOpen = true ∨ s.lines.mode ≠ t.lines.mode →
        (t.ejector d).phase ∈ [.waitSlot, .forward, .retract] ∧
          (t.ejector d).attempt = (s.ejector d).attempt + (if (t.ejector d).phase = .waitSlot then 0 else 1) ∧
          ((t.ejector d).phase = .waitSlot → t.arbiter.count ≤ t.arbiter.held)) ∧
      (t.level .mouldOpen = false ∨ t.lines.mode = .stop → t.ejector d = s.ejector d)) ∧
    (let left (d : Daylight) : Bool := unset && (s.ejector d).test.isSome
    let home (d : Daylight) : Bool := rose (.ejectHome d) &&
      ((s.ejector d).test.any (fun x => decide (x.phase = .retract)) ||
        decide ((s.ejector d).phase = .retract ∧ ¬ ((s.ejector d).failed = true ∧ (s.ejector d).attempt = 1)))
    let joins (d : Daylight) : Bool := decide ((s.ejector d).phase = .waitOpen) && t.level .mouldOpen &&
      decide (t.lines.mode ≠ .stop ∧ (rose .mouldOpen = true ∨ s.lines.mode ≠ t.lines.mode))
    closing = false → stopping = false → s.slotsKept →
      rose .mouldOpen = true ∨ (∀ d, joins d = false) ∨ quiet = true ∧ unset = false →
      s.SlotsHandedOver (fun d => s.holds d && !left d && !home d) (fun d => s.waits d && !left d || joins d) t) ∧
    (closing = false → rose .mouldOpen = false → s.lines.mode = t.lines.mode → quiet = true →
      t.demould = s.demould ∧ t.arbiter = s.arbiter ∧
        ∀ d, (s.entry d).state ≠ .curing → t.entry d = s.entry d)

/-! ## Invariants -/

/-- The heater budget (R56, R57): the load of the active duties is within the budget in force, and the next fixed load
within the write bound. The shadow duty of an OFF zone is 0, but for one that waits for MANUAL (R51, R52, R62). -/
def State.budgetKept (s : State) : Prop :=
  dutyLoad s.zones ≤ s.budget.inForce ∧ nextFixedLoad s.zones ≤ s.budget.writeBound ∧
    ∀ z, (s.zone z).mode = .off →
      if (s.zone z).nextMode = .manual then (s.zone z).shadowPending = true else (s.zone z).shadow = some 0

/-- The Commit Queue holds at most 12 records (R160). -/
def State.commitKept (s : State) : Prop := s.depth ≤ Config.commitPlaces

/-- A recipe slot and a version are those of the active recipe (R149). -/
def State.activeVersion (s : State) (k : RecipeSlot) (version : Nat) : Prop :=
  s.recipes.active = some k ∧ s.slotVersion k = version

/-- The Charge Queue (R125, R149): at most 4 charges, no two with the same target daylight, each built under the active
recipe slot and its current version; a charge is in progress exactly while the builder is not IDLE (R112), and it has a free
place, a target of its own and the same recipe. Recovery returns to a charge (R120). -/
def State.queueKept (s : State) : Prop :=
  (s.builder.state = .idle ↔ s.builder.charge = none) ∧
  (∀ r, s.builder.recovery = some r → r.state ≠ .idle) ∧
  s.queue.length ≤ Config.queuePlaces ∧ (s.queue.map (·.record.daylight)).Nodup ∧
    (∀ e ∈ s.queue, s.activeVersion e.record.slot e.record.version) ∧
    ∀ c, s.builder.charge = some c →
      s.queue.length < Config.queuePlaces ∧ (∀ e ∈ s.queue, e.record.daylight ≠ c.daylight) ∧
        s.activeVersion c.slot c.version

/-- The sequence or the test of a daylight is in a phase. -/
def Ejector.inPhase (seq : SeqPhase) (test : TestPhase) (e : Ejector) : Prop :=
  e.phase = seq ∨ e.test.map (·.phase) = some test

/-- The ejectors (R130, R131, R136, R141): a sequence runs exactly while its daylight is DEMOULDING, a test is held only for
an EMPTY daylight in SETUP; a slot is held exactly in FORWARD and RETURN and waited for exactly in WAIT_SLOT; a valve is on
exactly in FORWARD. -/
def State.ejectorsKept (s : State) : Prop :=
  ∀ d, ((s.ejector d).phase ≠ .idle ↔ (s.entry d).state = .demoulding) ∧
    ((s.ejector d).test.isSome = true → (s.entry d).state = .vacant ∧ s.lines.mode = .setup) ∧
    (s.holds d = true ↔ (s.ejector d).inPhase .forward .forward ∨ (s.ejector d).inPhase .retract .retract) ∧
    (s.waits d = true ↔ (s.ejector d).inPhase .waitSlot .waitSlot) ∧
    ((s.ejector d).valve = true ↔ (s.ejector d).inPhase .forward .forward)

/-- The demould grant (R130, R133): it is in force exactly while some daylight of its set is DEMOULDING, and every DEMOULDING
daylight is of its set; while one is, no daylight is CURING, CURED or HELD (R11, R132). -/
def State.grantKept (s : State) : Prop :=
  (∀ g, s.demould.grant = some g → ∃ d, g.daylights.get d = true ∧ (s.entry d).state = .demoulding) ∧
    ∀ d, (s.entry d).state = .demoulding →
      (∃ g, s.demould.grant = some g ∧ g.daylights.get d = true) ∧
        ∀ e, (s.entry e).state ∉ [.curing, .cured, .held]

/-- The number of valves that are on. -/
def State.valvesOn (s : State) : Nat := (Daylight.all.filter (fun d => (s.ejector d).valve)).length

/-- The flash holds its canonical form. -/
def State.flashKept (s : State) : Prop := s.flash.wf = true

/-- A port whose role is OFF has no notice and no mask (R179). -/
def State.offKept (s : State) : Prop := ∀ p, (s.port p).role = .off → (s.port p).notices = 0#32 ∧ (s.port p).mask = 0#32

/-- The Line Monitor (R25 to R28, R30): during qualification everything is at its reset interpretation; afterwards the mode
is decoded from the interpreted mode lines and no pair is interpreted asserted on both lines; the heat hold has its reasons
at all times. -/
def State.linesKept (s : State) : Prop :=
  (s.lines.qualify.isSome = true →
      (∀ l, s.level l = resetLevel l) ∧ s.lines.mode = .stop ∧ s.lines.faults.any = false) ∧
    s.lines.mode = decodeMode (s.level .modeA) (s.level .modeB) ∧
    ¬ (s.level .mouldClosed = true ∧ s.level .mouldOpen = true) ∧
    (∀ d, ¬ (s.level (.ejectFwd d) = true ∧ s.level (.ejectHome d) = true)) ∧
    s.lines.hold = { stop := s.lines.mode == .stop, inhibit := s.level .heatInhibit }

/-- Temperatures (R32, R33, R38, R67): trim codes, samples and one-second values lie in their ranges, the history holds the
samples of the second in progress, and LIMIT always latches. -/
def State.sensingKept (s : State) : Prop :=
  ∀ z, (-8 ≤ (s.channel z).trim ∧ (s.channel z).trim ≤ 7) ∧
    (∀ x ∈ (s.channel z).history, ∀ t, x = Sample.valid t → t ≤ 4000) ∧ (s.channel z).history.length ≤ 4 ∧
    s.periods ≤ (s.channel z).history.length ∧ s.periods ≤ 4 ∧
    (∀ t, (s.channel z).value = SecondValue.valid t → t ≤ 4000) ∧ (s.trip z .limit).kind = .latch

/-- The integrator, the request and the load weights of every zone lie in their ranges (R45), and so do the window length, a
pending one, the window clock and the window phase (R47). -/
def State.controlKept (s : State) : Prop :=
  (∀ z, (s.zone z).integ ≤ 16000 ∧ (s.zone z).request ≤ 1000 ∧ 1 ≤ (s.zone z).weight ∧ (s.zone z).weight ≤ 15 ∧
    1 ≤ (s.zone z).nextWeight ∧ (s.zone z).nextWeight ≤ 15) ∧
    (2 ≤ s.window.length ∧ s.window.length ≤ 30) ∧ (∀ n, s.window.pending = some n → 2 ≤ n ∧ n ≤ 30) ∧
    s.window.untilStart ≤ s.window.length ∧ s.window.phase < s.window.length * 1000

/-- The Daylight Board (R1, R6, R7): a shot record is held exactly in the states that hold one, a permit timer runs exactly
while LOAD_PERMITTED, and a permit stands on a charge in the Charge Queue. While a sequence runs, its attempt and its stroke
failed flag are those of the shot record (R130). -/
def State.boardKept (s : State) : Prop :=
  ∀ d, ((s.entry d).shot.isSome = true ↔ (s.entry d).state ∉ [.unknown, .vacant, .loadPermitted]) ∧
    ((s.entry d).permit.isSome = true ↔ (s.entry d).state = .loadPermitted) ∧
    ((s.entry d).state = .loadPermitted → (s.queued d).isSome = true) ∧
    ((s.ejector d).phase ≠ .idle → (s.entry d).shot.all (fun r =>
      r.attempts == (s.ejector d).attempt && r.strokeFailed == (s.ejector d).failed) = true)

/-- A recipe copy or a selection waits only while the cell is not idle (R148, R149, R151). -/
def State.idleKept (s : State) : Prop := s.cellIdle = true → s.nothingWaits

/-- A zone with a trip or the heat hold in force has its heater output kept off to the end of the window, even if the trip
or the hold ends before (R30, R50, R64, R76): its on-time is 0, it was cut, or it was off at the window start. -/
def State.outputsKept (s : State) : Prop :=
  ∀ z, (s.tripInForce z = true ∨ s.heatHold = true) →
    s.window.onTime.get z = 0 ∨ s.window.cut.get z = true ∨ s.window.blocked.get z = true

/-! ## The transitions of a daylight entry -/

/-- The states a daylight can enter by a command from a state (table of section 1.1, R5 to R18). A takeout or a declaration
can pass through AWAIT_COMMIT to EMPTY when its record is admitted at once (R16). -/
def moves (c : Instr) (old new : DaylightState) : Bool :=
  match c, old, new with
  | .declare _ _, .unknown, .vacant => true
  | .declare _ _, .unknown, .awaitCommit => true
  | .loadRequest _ _, .vacant, .loadPermitted => true
  | .loadDone _ _, .vacant, .loaded => true
  | .loadDone _ _, .loadPermitted, .loaded => true
  | .loadCancel _ _, .loadPermitted, .vacant => true
  | .permitLapse _, .loadPermitted, .vacant => true
  | .chargeDiscard _ _, .loadPermitted, .vacant => true
  | .cureStart _ _, .loaded, .curing => true
  | .perSecondAccounting, .curing, .cured => true
  | .perSecondAccounting, .curing, .held => true
  | .forceRelease _ _, .curing, .held => true
  | .debouncedLevelChange _, .curing, .held => true
  | .demouldRequest _ _, .cured, .demoulding => true
  | .demouldRequest _ _, .held, .demoulding => true
  | .debouncedLevelChange _, .demoulding, .awaitTakeout => true
  | .qualificationExpiry, .demoulding, .awaitTakeout => true
  | .strokeTimerExpiry _, .demoulding, .awaitTakeout => true
  | .returnTimerExpiry _, .demoulding, .awaitTakeout => true
  | .takeoutDone _ _, .awaitTakeout, .awaitCommit => true
  | .takeoutDone _ _, .awaitTakeout, .vacant => true
  | .takeoutDone _ _, .awaitCommit, .vacant => true
  | .declare _ _, .awaitCommit, .vacant => true
  | .flushProgramDone _, .awaitCommit, .vacant => true
  | .drain _ _, .awaitCommit, .vacant => true
  | _, _, _ => false

/-! ## Shot numbers -/

/-- The shot number of a history record that is a SHOT. -/
def HistRecord.shotNumber : HistRecord → Option Nat
  | .shot r => some r.number
  | .chargeReject _ => none
  | .heatTrip _ => none

/-- The shot numbers in the Commit Queue, oldest first. -/
def State.queuedShots (s : State) : List Nat := s.commit.records.filterMap HistRecord.shotNumber

/-- Shot numbers (R2, R16, R167): each shot on the board has a number of its own below the next shot number, the SHOT
records in the Commit Queue strictly increase, and they lie below every shot on the board. -/
def State.shotsKept (s : State) : Prop :=
  (∀ d n, s.shotNumber d = some n → n < s.board.nextShot) ∧
    (∀ d d' n, s.shotNumber d = some n → s.shotNumber d' = some n → d = d') ∧
    s.queuedShots.Pairwise (· < ·) ∧ (∀ m ∈ s.queuedShots, m < s.board.nextShot) ∧
    ∀ m ∈ s.queuedShots, ∀ d n, s.shotNumber d = some n → m < n

/-! ## Steps -/

/-- The cure index of the shot a daylight holds. -/
def State.cureIndex (s : State) (d : Daylight) : Option Nat := ((s.entry d).shot.bind (·.cure)).map (·.index)

end Sys2Proof.Machine
end

