-- ==== Sys2Proof/Certificates/Slice0/Obligations.lean ====
section
/-! DEFINITION. The statements for the provers. Unless a docstring says otherwise, a statement holds for every state, whether a
run reaches it or not; a premise that rules states out is an invariant stated here as kept by every step. -/

section
open Sys2Proof Sys2Proof.Machine

/-! ## The step and the queue of commands -/

/-- A step takes the command at the front of the queue and runs it on the state with the queue's rest. -/
def Obligations.StepRunsFrontCommand : Prop :=
  ∀ (c : Instr) (rest : List Instr) (s : State), s.pending = c :: rest → step s = exec c { s with pending := rest }

/-- The model's choice (log 2, log 3), not the manual's: on an empty queue a step is one millisecond. Every running timer has
one millisecond less, the phase of the window one more up to the window's last millisecond (log 29), and the queue takes the
command of each timer that runs out and of each event that is due, written out in their order: the lines whose debounce ends
together, qualification, the builder's timers, each daylight's permit, stroke, return and test, the on-times that end, a window
start that is due (log 53), a calibration with its 80 samples, the flash step's limit, and an idle link with something to serve. In that millisecond each station clocks bytes, as many as it likes (log 13), each by R180:
a port in REQUEST or WORKING returns 0x00, until the response begins, with 0xA5 and within 64 bytes; then its status, detail,
length, payload and CRC-8 follow; after the last of them the port is in AFTER and returns 0xFF. A byte clocked changes nothing
but that, and none at all in IDLE, REQUEST and AFTER. -/
def Obligations.EmptyQueuePassesOneMillisecond : Prop :=
  (∀ s : State, s.pending = [] →
    (let out (timer : Option Nat) : Bool := timer.any (fun ms => decide (ms ≤ 1))
    let due (condition : Bool) (c : Instr) : List Instr := if condition then [c] else []
    let settling : List Line := Line.all.filter (fun l => out (s.lines.line.get l).interval)
    let timed (d : Daylight) : List Instr :=
      (let e := s.ejector d
      due (out (s.entry d).permit) (.permitLapse d) ++
        due (out e.timer && decide (e.phase = .forward)) (.strokeTimerExpiry d) ++
        due (out e.timer && decide (e.phase = .retract)) (.returnTimerExpiry d) ++
        due (out (e.test.bind (·.timer))) (.ejectorTestTimerExpiry d))
    let calibrated (zero : Bool) : Bool := s.weigh.cal.any (fun c =>
      decide (c.samples = 80) && (match c.kind with | .zeroing => zero | .spanning _ _ => !zero))
    let served : Bool := s.history.format.isSome || s.recipes.save.isSome ||
      decide (s.history.memory = .ready ∧ s.commit.records ≠ []) ||
      [Port.p1, .p2, .p3].any (fun p => decide ((s.port p).read = .waiting))
    ∃ t, step s = .next t ∧
    t.pending = due (!settling.isEmpty) (.debouncedLevelChange settling) ++ due (out s.lines.qualify) .qualificationExpiry ++
      due (out s.builder.tareTimer) .tareTimerExpiry ++ due (out s.builder.gapTimer) .gapTimerExpiry ++
      due (out s.builder.recoveryTimer) .recoveryTimerExpiry ++ timed .d1 ++ timed .d2 ++ timed .d3 ++ timed .d4 ++
      (Zone.all.filter (fun z => decide (s.window.onTime.get z = s.window.phase + 1 ∧
        s.window.onTime.get z < s.window.length * 1000))).map .heaterOnTimeEnd ++
      due (decide (s.window.untilStart = 0)) .windowStart ++
      due (calibrated true) .scaleZeroDone ++ due (calibrated false) .scaleSpanDone ++
      due (out s.link.left) .flashStepTimeout ++ due (s.link.op.isNone && served) .linkArbitration ∧
    (∀ l, t.lines.line.get l = { s.lines.line.get l with interval := (s.lines.line.get l).interval.map (· - 1) }) ∧
    t.lines.qualify = s.lines.qualify.map (· - 1) ∧
    t.lines.mode = s.lines.mode ∧ t.lines.faults = s.lines.faults ∧ t.lines.hold = s.lines.hold ∧
    t.window = { s.window with phase := max s.window.phase (min (s.window.phase + 1) (s.window.length * 1000 - 1)) } ∧
    t.builder = { s.builder with
      tareTimer := s.builder.tareTimer.map (· - 1), gapTimer := s.builder.gapTimer.map (· - 1)
      recoveryTimer := s.builder.recoveryTimer.map (· - 1) } ∧
    (∀ d, t.entry d = { s.entry d with permit := (s.entry d).permit.map (· - 1) }) ∧
    t.board.nextShot = s.board.nextShot ∧ t.board.permitTime = s.board.permitTime ∧
    t.demould.grant = s.demould.grant ∧
    (∀ d, t.ejector d = { s.ejector d with
      timer := (s.ejector d).timer.map (· - 1)
      test := (s.ejector d).test.map (fun x => { x with timer := x.timer.map (· - 1) }) }) ∧
    t.link = { s.link with left := s.link.left.map (· - 1) } ∧ t.free = s.free + 1 ∧
    (∀ p, (∃ begins : List Bool, t.port p = begins.foldl (fun q b => q.clockByte b) (s.port p)) ∧
      t.port p = { s.port p with recv := (t.port p).recv, clocked := (t.port p).clocked }) ∧
    Frame [.lines, .window, .builder, .board, .demould, .link, .ports, .free, .pending] s t)) ∧
  (∀ (q : PortState) (begins : Bool),
    (q.recv ∈ [.idle, .request, .after] → q.clockByte begins = q) ∧ (q.recv = .request → q.returned begins = some 0x00#8) ∧
    (q.recv = .after → q.returned begins = some 0xFF#8) ∧
    ∀ r, q.response = some r →
      (let body : List Byte := u8 r.status.code ++ u8 r.detail ++ u16 r.payload.length ++ r.payload
      let bytes : List Byte := 0xA5#8 :: (body ++ [crc8 body])
      let starts : Bool := begins || decide (63 ≤ q.clocked)
      (q.recv = .working → starts = false →
        q.returned begins = some 0x00#8 ∧ q.clockByte begins = { q with clocked := q.clocked + 1 }) ∧
      (q.recv = .working → starts = true →
        q.returned begins = some 0xA5#8 ∧ q.clockByte begins = { q with recv := .response, clocked := 1 }) ∧
      (∀ b, q.recv = .response → bytes[q.clocked]? = some b → q.returned begins = some b ∧
        q.clockByte begins = { q with
          recv := if q.clocked + 1 = bytes.length then .after else .response, clocked := q.clocked + 1 })))


/-- No command changes the queue of the commands that wait: only the step does. And no command but DEVICE_RESET changes the role
of a port (R178). -/
def Obligations.CommandsLeaveTheQueueAndTheRoles : Prop :=
  ∀ (c : Instr) (s t : State), exec c s = .next t →
    t.pending = s.pending ∧
    ((∀ straps memory, c ≠ .deviceReset straps memory) → ∀ p, (t.port p).role = (s.port p).role)

/-! ## Device reset -/

/-- What device reset leaves in every block whose reset value the manual fixes for every state (R1, R6, R23, R25, R32, R33, R45,
R47, R67, R82, R98, R112, R125, R130, R131, R145, R159, R163, R166, R183, R186, R187, R188), and what it leaves in the flash: nothing
changes but the slot or the sector of a step that it cuts short (R165, R166). The cut program leaves its slot torn; a cut step of
sector 0 leaves no valid image; that a cut erase leaves slot 0 torn and the sector's other bytes free is the model's choice
(log 9). -/
def Obligations.DeviceResetLeavesEveryBlockReset : Prop :=
  ∀ (straps : Three Strap) (memory : Option Nat) (s : State), ∃ t, exec (.deviceReset straps memory) s = .next t ∧
    t.clock = { shop := 0, isSet := false, uptime := 0 } ∧
    (∀ l, t.lines.line.get l =
      { raw := (s.lines.line.get l).raw, debounced := none, interval := some 20, level := decide (l = .heatInhibit) }) ∧
    t.lines.qualify = some 500 ∧ t.lines.mode = .stop ∧ t.lines.faults.any = false ∧
    t.lines.hold = { stop := true, inhibit := true } ∧
    (∀ z, (t.channel z).history = [] ∧ (t.channel z).value = .invalid .openCircuit ∧ (t.channel z).formed = false) ∧ t.periods = 0 ∧
    (∀ z, (t.zone z).mode = .auto ∧ (t.zone z).pendingMode = none ∧ (t.zone z).pendingWeight = none ∧
      (t.zone z).integ = 0 ∧ (t.zone z).unclamped = 0 ∧ (t.zone z).request = 0 ∧ (t.zone z).shadow = none ∧
      (t.zone z).shadowPending = false ∧ (t.zone z).duty = 0 ∧ (t.zone z).heldHigh = false) ∧
    t.budget.pending = none ∧ t.budget.fixed = 0 ∧ t.budget.available = 0 ∧ t.budget.demand = 0 ∧
    t.budget.scaled = false ∧ t.window.pending = none ∧ t.window.untilStart = 1 ∧
    (∀ z, t.window.onTime.get z = 0 ∧ t.window.cut.get z = false) ∧
    (∀ z src, (t.trip z src).state = .none ∧ (t.trip z src).present = false ∧ (t.trip z src).onset = none) ∧
    (∀ z, (t.trip z .limit).kind = .latch) ∧ (∀ d, t.cure.get d = CureState.reset) ∧
    t.weigh = { t.weigh with
      raw := none, window := [], filtered := [], settled := false, lastSettled := none, overload := false, cal := none } ∧
    t.builder = Builder.reset ∧ t.queue = [] ∧
    (∀ d, t.entry d = { state := .unknown, permit := none, shot := none }) ∧
    t.demould.grant = none ∧ (∀ d, t.ejector d = Ejector.reset) ∧ (∀ d, t.holds d = false ∧ t.waits d = false) ∧
    t.nothingWaits ∧ t.recipes.heatRevision = 0 ∧ t.recipes.save = none ∧ t.recipes.lastSave = none ∧
    t.commit = { records := [], dropped := 0 } ∧ t.history.format = none ∧ t.history.cause = none ∧
    t.link = { op := none, left := none, lastPort := .p3, lastRead := false } ∧
    (∀ p, (t.port p).selected = (s.port p).selected ∧ (t.port p).recv = .idle ∧ (t.port p).mask = 0#32 ∧
      (t.port p).slot = .idle ∧ (t.port p).cursorValid = false ∧ (t.port p).read = .idle ∧ (t.port p).response = none ∧
      (t.port p).clocked = 0) ∧
    (s.link.op = none → t.flash = s.flash) ∧
    ∀ op, s.link.op = some op →
      (let h := s.history
      let sector (ring seq : Nat) : Nat := seq % ring + 1
      let ring : Nat := h.ringSize.getD 0
      let torn (k slot count : Nat) : Prop := t.flash.settings = s.flash.settings ∧ slotTorn (t.flash.slot k slot) = true ∧
        ∀ a, a < k * 65536 + slot * 128 ∨ k * 65536 + slot * 128 + count ≤ a →
          readByte t.flash.cells a = readByte s.flash.cells a
      ((∃ p x, op = .portRead p x) → t.flash = s.flash) ∧
      (op = .flushProgram → torn (sector ring h.head) h.writeSlot 128) ∧
      (∀ seq, op = .sectorErase seq → torn (sector ring seq) 0 65536) ∧
      (∀ seq, op = .sectorHeader seq → torn (sector ring seq) 0 128) ∧
      (∀ k, op = .format (.ringErase k) → torn k 0 65536) ∧
      (∀ f, op = .format .header → h.format = some f → torn (sector f.size f.first) 0 128) ∧
      ((∃ i, op = .settingsErase i ∨ op = .settingsProgram i ∨ op = .format (.settingsErase i) ∨
        op = .format (.settingsProgram i)) → t.flash = { s.flash with settings := .partialImage }))

/-- The roles after device reset (R178) and the notices set by it (R184): HEAT_HOLD, HISTORY_FAULT where the memory is not
usable, ROLE_CONFLICT where a port became OBSERVER, SETTINGS_DEFAULT where the defaults apply; an OFF port has none (R179). -/
def Obligations.DeviceResetReadsRolesAndSetsNotices : Prop :=
  ∀ (straps : Three Strap) (memory : Option Nat) (s : State), ∃ t, exec (.deviceReset straps memory) s = .next t ∧
    (let strapped (x : Strap) : Role :=
      if x.first then (if x.second then .supervisor else .press) else if x.second then .charge else .off
    let clash (a b : Strap) : Bool := decide (a = b ∧ (strapped a = .press ∨ strapped a = .charge))
    let second := clash straps.a1 straps.a2
    let third := clash straps.a1 straps.a3 || clash straps.a2 straps.a3
    (t.port .p1).role = strapped straps.a1 ∧
      (t.port .p2).role = (if second then .observer else strapped straps.a2) ∧
      (t.port .p3).role = (if third then .observer else strapped straps.a3) ∧
      ∀ p, (t.port p).notices = if (t.port p).role = .off then 0#32 else
        Notice.heatHold.word ||| (if t.history.memory.faulty then Notice.historyFault.word else 0#32)
          ||| (if second || third then Notice.roleConflict.word else 0#32)
          ||| (if t.recipes.fromImage then 0#32 else Notice.settingsDefault.word))


/-- Device reset loads the settings and scans the flash, as it finds it (R158, R164, R165, R2). With no valid image, or an absent
memory (no reply, or fewer than 3 sectors), every setting has its default and SETTINGS_CHANGED is set; with a valid image every
value of it is in force, clamped, a record that is not sound is an empty slot, and an active slot that is empty is none. The ring
in use is that of the image, otherwise that of a valid header of sector 1 (a ring size below 2 is none: the model's choice,
log 35). With no ring, one past the last sector, or no valid header the memory is UNFORMATTED. Otherwise it is READY: the head is
the highest sequence, the oldest the last of the run below it, the write slot the first blank slot of the head, and the torn
slots and the highest SHOT number are those of the slots read. The sector count is what the memory reports, 0 with no reply and at
most 65535 (R163). More than 65535 sectors, and a next shot number past 32 bits, are log 44. -/
def Obligations.DeviceResetWithoutImageLoadsDefaults : Prop :=
  ∀ (straps : Three Strap) (memory : Option Nat) (s : State), ∃ t, exec (.deviceReset straps memory) s = .next t ∧
    t.history.sectors = min 65535 (memory.getD 0) ∧
    (let absent : Prop := memory.getD 0 < 3
    (absent ∨ (∀ i, t.flash.settings ≠ .image i) →
      (∀ z, (t.channel z).trim = 0 ∧ (t.zone z).kp = 32 ∧ (t.zone z).ki = 4 ∧ (t.zone z).weight = 10 ∧
        (t.trip z .openCircuit).kind = .latch ∧ (t.trip z .over).kind = .cycle) ∧
      t.budget.inForce = 150000 ∧ t.window.length = 4 ∧ t.weigh.zero = 0 ∧ t.weigh.span = 500 ∧ t.weigh.band = 5 ∧
      t.arbiter.count = 2 ∧ t.board.permitTime = 30 ∧
      (∀ k, t.recipes.slots.get k = { record := none, version := 0 }) ∧ t.recipes.active = none ∧
      t.recipes.changed = true ∧ t.recipes.fromImage = false ∧ t.history.storedRing = none ∧ t.history.shotBase = 1 ∧
      t.history.seqBase = 0) ∧
    (∀ i, ¬ absent → t.flash.settings = .image i →
      (∀ z, (t.channel z).trim = max (-8) (min 7 (i.trim.get z)) ∧ (t.zone z).kp = min 255 (i.kp.get z) ∧
        (t.zone z).ki = min 255 (i.ki.get z) ∧ (t.zone z).weight = max 1 (min 15 (i.weight.get z)) ∧
        (t.trip z .openCircuit).kind = i.openKind.get z ∧ (t.trip z .over).kind = i.overKind.get z) ∧
      t.budget.inForce = min 150000 i.budget ∧ t.window.length = max 2 (min 30 i.window) ∧
      t.weigh.zero = max (-8388608) (min 8388607 i.zero) ∧ t.weigh.span = max 1 (min 65535 i.span) ∧
      t.weigh.band = max 1 (min 255 i.band) ∧ t.arbiter.count = max 1 (min 4 i.slotCount) ∧
      t.board.permitTime = max 5 (min 120 i.permitTime) ∧
      (∀ k, t.recipes.slots.get k = {
        record := (i.records.get k).bind (fun b => if structureSound b then some (readRecipe b).clamp else none)
        version := min 65535 (i.versions.get k) }) ∧
      (∀ k, t.recipes.active = some k ↔ i.active = some k ∧ (t.recipes.slots.get k).record.isSome = true) ∧
      t.recipes.changed = false ∧ t.recipes.fromImage = true ∧
      t.history.storedRing = i.ringSize.map (fun n => max 2 (min 255 n)) ∧
      t.history.shotBase = min 4294967295 i.shotBase ∧ t.history.seqBase = min 8405023 i.seqBase) ∧
    (absent → t.history.memory = .absent ∧ t.board.nextShot = t.history.shotBase) ∧
    (¬ absent →
      (let h := t.history
      let header (k ring seq first : Nat) : Prop :=
        (let b := t.flash.slot k 0
        slotValid b = true ∧ byteAt b 0 = 0x10 ∧ byteAt b 1 = ring ∧ field b 4 4 = seq ∧ field b 8 4 = first ∧
          seq % ring + 1 = k)
      let unformatted : Prop := h.memory = .unformatted ∧ h.ringHeld = false ∧ t.board.nextShot = h.shotBase
      let inUse (ring first : Nat) : Prop := h.storedRing = some ring ∧ h.seqBase = first ∨
        h.storedRing = none ∧ 2 ≤ ring ∧ ∃ seq, header 1 ring seq first
      ((∀ ring first, ¬ inUse ring first) → unformatted) ∧
      ∀ ring first, inUse ring first →
        (let found (seq : Nat) : Prop := header (seq % ring + 1) ring seq first
        (min 65535 (memory.getD 0) < ring + 1 ∨ (∀ seq, ¬ found seq) → unformatted) ∧
        (ring + 1 ≤ min 65535 (memory.getD 0) → (∃ seq, found seq) →
          (let places : List Nat := (List.range (h.head + 1 - h.oldest)).flatMap (fun i =>
            (List.range (if h.oldest + i = h.head then h.writeSlot - 1 else 511)).map (fun j => (h.oldest + i) * 512 + j + 1))
          let slot (x : Nat) : List Byte := t.flash.slot (x / 512 % ring + 1) (x % 512)
          let isShot (x : Nat) : Prop := slotValid (slot x) = true ∧ byteAt (slot x) 0 = 0x01
          h.memory = .ready ∧ h.ringHeld = true ∧ h.ringSize = some ring ∧ h.firstSeq = first ∧
          found h.head ∧ (∀ seq, found seq → seq ≤ h.head) ∧ h.oldest ≤ h.head ∧
          (∀ seq, h.oldest ≤ seq → seq ≤ h.head → found seq) ∧ (0 < h.oldest → ¬ found (h.oldest - 1)) ∧
          1 ≤ h.writeSlot ∧ h.writeSlot ≤ 512 ∧
          (∀ j, 1 ≤ j → j < h.writeSlot → slotBlank (t.flash.slot (h.head % ring + 1) j) = false) ∧
          (h.writeSlot < 512 → slotBlank (t.flash.slot (h.head % ring + 1) h.writeSlot) = true) ∧
          h.torn = (places.filter (fun x => slotTorn (slot x))).length ∧
          ((∀ x ∈ places, ¬ isShot x) → t.board.nextShot = h.shotBase) ∧
          (∀ x ∈ places, isShot x → (∀ y ∈ places, isShot y → field (slot y) 8 4 ≤ field (slot x) 8 4) →
            t.board.nextShot = min 4294967295 (max (field (slot x) 8 4 + 1) h.shotBase))))))))

/-! ## Frames and transactions of the station ports -/

/-- Encoding and decoding a request frame agree (R180, R189): the frame of every request that can be sent decodes to that
request, with its port and every payload byte. -/
def Obligations.RequestFrameRoundTrip : Prop :=
  ∀ (c : Instr) (p : Port) (bytes : List Byte),
    c.wf = true → encodeFrame c = some (p, bytes) → decodeFrame p bytes = some c

/-- What a port in REQUEST makes of bytes that are no sound request (R180): nothing while the request is not complete; a
FRAME_ERROR at a length byte above 192; a FRAME_ERROR at a CRC byte that does not match; an UNKNOWN_COMMAND where the CRC
matches and the code is not in the summary. The worked transaction of section 12.2: 0x01 0x00 0x15 is a daylight status read,
and with 0x16 in place of 0x15 the CRC does not match. -/
def Obligations.FaultyFramesAreRecognised : Prop :=
  ∀ (p : Port) (code len crc : Byte) (rest : List Byte),
    decodeFrame p [] = none ∧ decodeFrame p [code] = none ∧
    (192 < len.toNat → decodeFrame p (code :: len :: rest) = some (.frameError p .length)) ∧
    (len.toNat ≤ 192 → rest.length ≤ len.toNat → decodeFrame p (code :: len :: rest) = none) ∧
    (len.toNat ≤ 192 → rest.length = len.toNat → crc ≠ crc8 (code :: len :: rest) →
      decodeFrame p (code :: len :: (rest ++ [crc])) = some (.frameError p .crc)) ∧
    (len.toNat ≤ 192 → rest.length = len.toNat → unknownCode code = true →
      decodeFrame p (code :: len :: (rest ++ [crc8 (code :: len :: rest)])) = some (.unknownCommand p code)) ∧
    decodeFrame p [0x01#8, 0x00#8, 0x15#8] = some (.daylightStatus p []) ∧
    decodeFrame p [0x01#8, 0x00#8, 0x16#8] = some (.frameError p .crc)

/-- R181: the deassertion of chip select returns the port to IDLE from any receive state and discards what is left of the
request or of the response; every effect of the request stands, since nothing else of the part changes. The assertion makes a
port REQUEST (R180); a chip select already asserted makes no assertion (R188). -/
def Obligations.ChipSelectBeginsAndEndsTransactions : Prop :=
  ∀ (p : Port) (s : State),
    (∃ t, exec (.chipSelectDeassert p) s = .next t ∧
      t.port p = { s.port p with selected := false, recv := .idle, response := none } ∧ OtherPorts p s t ∧
      Frame [.ports] s t) ∧
    ((s.port p).selected = false → exec (.chipSelectAssert p) s = .next { s with
      ports := s.ports.set p { s.port p with selected := true, recv := .request, response := none, clocked := 0 } }) ∧
    ((s.port p).selected = true → exec (.chipSelectAssert p) s = .next s)

/-- A frame error and an unknown command are answered at a port in REQUEST, with the detail of the fault, and change nothing
else (R180); that an OFF port too answers an unknown code so is DEDUCED (log 21). The model's choice (log 12): in any other
receive state the bytes are ignored. -/
def Obligations.FrameErrorsAndUnknownCodesAreAnswered : Prop :=
  ∀ (p : Port) (code : Byte) (s : State),
    ((s.port p).recv = .request →
      exec (.frameError p .crc) s = .next (s.answered p ⟨.frameError, 1, []⟩) ∧
      exec (.frameError p .length) s = .next (s.answered p ⟨.frameError, 2, []⟩) ∧
      exec (.unknownCommand p code) s = .next (s.answered p ⟨.unknownCommand, 0, []⟩)) ∧
    ((s.port p).recv ≠ .request →
      (∀ kind, exec (.frameError p kind) s = .next s) ∧ exec (.unknownCommand p code) s = .next s)

/-- The checks that every request of the summary passes first (R179): a role that the summary does not allow is refused with
DENIED, then a payload of another length with BAD_VALUE and the expected length in the detail. A refused request has no
effect beyond its response. The model's choice (log 12), from "bytes that the station sends in WORKING and RESPONSE are ignored"
(R180): a request at a port that is not in REQUEST has no effect. -/
def Obligations.EveryRequestChecksRoleThenLength : Prop :=
  ∀ (c : Instr) (row : Row) (p : Port) (payload : List Byte) (s : State), requestParts c = some (row, p, payload) →
    ((s.port p).recv = .request →
      ((s.port p).role ∉ row.roles → exec c s = .next (s.answered p ⟨.denied, 0, []⟩)) ∧
      ((s.port p).role ∈ row.roles → payload.length ≠ row.length →
        exec c s = .next (s.answered p ⟨.badValue, row.length, []⟩))) ∧
    ((s.port p).recv ≠ .request → exec c s = .next s)

/-- The thirteen status reads without a payload answer OK with their fields and change no state (R21, R31, R43, R65, R66, R80,
R96, R110, R129, R143, R154, R158, R177), each written out byte by byte from the formats of R190. The places and codes that R190
leaves to the reader of a rule are the model's choice (log 19, log 20), and so are the bits of the fault and hold masks
(log 45), the eject limit absent with no recipe (log 48), the four bytes of a queued charge's age (log 38), the last save's result
as its status code alone (log 52), and the permit seconds between whole seconds (free, log 28). DEDUCED are the two bytes of Kp, Ki, stability band and ring size (log 46), and that
the cure status shows a shot until its record is closed (log 23), and that the demould status shows NOT_HOME of a DEMOULDING
daylight only, as R143 says and R144 does not (log 54). The history status of an unusable memory shows the descriptor as
State holds it (log 7). -/
def Obligations.StatusReadsAnswerTheirFields : Prop :=
  (∀ (p : Port) (b : List Byte) (s : State),
    (s.port p).recv = .request → (s.port p).role ∈ rolesAll → b.length = 0 →
      exec (.daylightStatus p b) s = .next (s.answered p ⟨.ok, 0, s.daylightPayload⟩) ∧
      exec (.lineStatus p b) s = .next (s.answered p ⟨.ok, 0, s.linePayload⟩) ∧
      exec (.zoneStatus p b) s = .next (s.answered p ⟨.ok, 0, perZone s.zoneFields⟩) ∧
      exec (.zoneControlRead p b) s = .next (s.answered p ⟨.ok, 0, perZone s.zoneControlFields⟩) ∧
      exec (.budgetStatus p b) s = .next (s.answered p ⟨.ok, 0, s.budgetPayload⟩) ∧
      exec (.tripStatus p b) s = .next (s.answered p ⟨.ok, 0, s.tripPayload⟩) ∧
      exec (.cureStatus p b) s = .next (s.answered p ⟨.ok, 0, perDaylight s.cureFields⟩) ∧
      exec (.scaleStatus p b) s = .next (s.answered p ⟨.ok, 0, s.weigh.bytes⟩) ∧
      exec (.chargeStatus p b) s = .next (s.answered p ⟨.ok, 0, s.chargePayload⟩) ∧
      exec (.demouldStatus p b) s = .next (s.answered p ⟨.ok, 0, s.demouldPayload⟩) ∧
      exec (.recipeStatus p b) s = .next (s.answered p ⟨.ok, 0, s.recipePayload⟩) ∧
      exec (.settingsStatus p b) s = .next (s.answered p ⟨.ok, 0, s.settingsPayload⟩) ∧
      exec (.historyStatus p b) s = .next (s.answered p ⟨.ok, 0, s.historyPayload⟩)) ∧
  (∀ s : State,
    (let one (n : Nat) : List Byte := [BitVec.ofNat 8 n]
    let two (n : Nat) : List Byte := one n ++ one (n / 256)
    let four (n : Nat) : List Byte := two n ++ two (n / 65536)
    let bit (x : Bool) : List Byte := one (if x then 1 else 0)
    let given (width : Nat) (x : Option (List Byte)) : List Byte :=
      x.elim (0#8 :: List.replicate width 0#8) (fun bytes => 1#8 :: bytes)
    let fields (xs : List (List Byte)) : List Byte := xs.flatten
    let daylights (f : Daylight → List Byte) : List Byte := fields [f .d1, f .d2, f .d3, f .d4]
    let mask (f : Daylight → Bool) : Nat :=
      (if f .d1 then 1 else 0) + (if f .d2 then 2 else 0) + (if f .d3 then 4 else 0) + (if f .d4 then 8 else 0)
    let zones (f : Zone → List Byte) : List Byte :=
      fields [f .z0, f .z1, f .z2, f .z3, f .z4, f .z5, f .z6, f .z7, f .z8, f .z9]
    let value (z : Zone) : List Byte := match (s.channel z).value with
      | .valid x => fields [given 2 (some (two x)), given 1 none]
      | .invalid c => fields [given 2 none, given 1 (some (one (if c = .openCircuit then 0 else 1)))]
    let mode (m : ZoneMode) : List Byte := one (match m with | .auto => 0 | .manual => 1 | .frozen => 2 | .off => 3)
    let level (x : Bool) : Nat := if x then 0 else 1
    s.daylightPayload = four s.board.nextShot ++ one s.depth ++ daylights (fun d =>
      (let e := s.entry d
      let cure := e.shot.bind (·.cure)
      fields [one e.state.code, bit (s.heatReady d), given 1 ((s.firstUnready d).map (fun x => one x.1.num)),
        given 1 ((s.firstUnready d).map (fun x => one x.2.code)),
        given 1 (if e.state = .loadPermitted then e.permit.map (fun ms => one
          (if ms % 1000 = 0 then ms / 1000 else Config.permitSecondsBetween ms)) else none),
        given 4 ((s.queued d).map (fun q => four q.record.number)), given 4 (e.shot.map (fun r => four r.number)),
        given 4 ((e.shot.bind (·.charge)).map (fun c => four c.number)),
        given 1 ((e.shot.bind (·.recipe)).map (fun x => one x.1.num)),
        given 2 ((e.shot.bind (·.recipe)).map (fun x => two x.2)), given 4 (cure.map (fun c => four c.index)),
        given 2 (cure.map (fun c => two c.seconds)),
        given 2 (cure.map (fun c => two ((256 * c.target - c.index + 255) / 256))),
        given 1 ((e.shot.bind (·.outcome)).map (fun o => one o.code)),
        given 1 (e.shot.bind (fun r => if r.attempts = 0 then none else some (one r.attempts))),
        given 3 (e.shot.bind (fun r => if r.lateLoad || r.heatRevised || r.notHome then
          some (fields [bit r.lateLoad, bit r.heatRevised, bit r.notHome]) else none)),
        given 1 (if e.state = .awaitCommit then some (one (if s.offerTarget = some d then 0 else 1)) else none)])) ∧
    s.linePayload = fields [one (level s.lines.qualify.isSome),
      (Line.all.map (fun l =>
        (let x := s.lines.line.get l
        fields [one (level x.raw), one (x.debounced.elim 2 level), one (level x.level)]))).flatten,
      one (match s.lines.mode with | .run => 0 | .setup => 1 | .stop => 2), bit (s.lines.hold.stop || s.lines.hold.inhibit),
      one ((if s.lines.hold.stop then 1 else 0) + if s.lines.hold.inhibit then 2 else 0),
      one ((if s.lines.faults.modeIllegal then 1 else 0) + (if s.lines.faults.mouldPair then 2 else 0)
        + 4 * mask s.lines.faults.ejectPair.get)] ∧
    perZone s.zoneFields = zones (fun z =>
      (let trips : List (List Byte) := [Source.openCircuit, .over, .limit].filterMap (fun src =>
        match (s.trip z src).state with
        | .none => none | .cycleInForce => some (one src.code ++ one 0) | .latchInForce => some (one src.code ++ one 1))
      fields [value z, bit (s.channel z).formed, one (s.readiness z).code, given 2 ((s.setpoint z).map two),
        mode (s.zone z).mode, two (s.zone z).request, two (s.zone z).duty, one trips.length, trips.flatten])) ∧
    perZone s.zoneControlFields = zones (fun z =>
      (let x := s.zone z
      fields [mode x.mode, given 1 (x.pendingMode.map mode), two x.kp, two x.ki, one x.weight,
        given 1 (x.pendingWeight.map one), two x.integ, two (x.unclamped % 65536).toNat, two x.request,
        given 2 (x.shadow.map two), bit x.shadowPending, two x.duty, two (s.window.onTime.get z), bit x.heldHigh,
        bit (s.window.cut.get z), bit (s.heaterOutput z)])) ∧
    s.budgetPayload = fields [four s.budget.inForce, given 4 (s.budget.pending.map four), four s.budget.writeBound,
      four (nextFixedLoad s.zones), four s.budget.fixed, four s.budget.available, four s.budget.demand,
      bit s.budget.scaled, four (Ten.sum (fun z => (s.zone z).weight * (s.zone z).duty)), one s.window.length,
      given 1 (s.window.pending.map one), two s.window.phase] ∧
    s.demouldPayload = fields [bit s.demould.grant.isSome,
      given 5 (s.demould.grant.map (fun g => four g.time.value ++ bit g.time.set)),
      given 1 (s.demould.grant.map (fun g => one (mask g.daylights.get))),
      daylights (fun d =>
        (let e := s.ejector d
        let shot := if (s.entry d).state = .demoulding then (s.entry d).shot else none
        fields [one (match e.phase with | .idle => 0 | .waitOpen => 1 | .waitSlot => 2 | .forward => 3 | .retract => 4),
          one e.attempt, bit e.failed,
          given 2 ((if e.timer.isSome then e.timer else e.test.bind (·.timer)).map two), bit e.valve,
          bit (s.arbiter.holders.get d), bit (s.arbiter.waiting.get d),
          given 1 ((shot.bind (·.outcome)).map (fun o => one o.code)), given 1 (shot.map (fun r => bit r.notHome))])),
      daylights (fun d => fields [
        given 1 ((s.ejector d).test.map (fun x =>
          one (match x.phase with | .waitSlot => 0 | .forward => 1 | .retract => 2))),
        given 1 ((s.ejector d).lastTest.map (fun r =>
          one (match r with | .passed => 0 | .noFwd => 1 | .noHome => 2 | .aborted => 3)))]),
      one s.arbiter.count, one s.arbiter.slotsInForce, one (mask s.arbiter.holders.get), one (mask s.arbiter.waiting.get),
      given 1 (s.activeRecipe.map (fun r => one r.eject))] ∧
    s.settingsPayload = fields [one (if s.recipes.fromImage then 0 else 1), bit s.recipes.changed,
      bit s.recipes.save.isSome, given 1 (s.recipes.save.map (fun x => one x.port.num)),
      given 1 (s.recipes.lastSave.map (fun x => one x.code))])) ∧
  (∀ s : State,
    (let one (n : Nat) : List Byte := [BitVec.ofNat 8 n]
    let two (n : Nat) : List Byte := one n ++ one (n / 256)
    let four (n : Nat) : List Byte := two n ++ two (n / 65536)
    let signed2 (i : Int) : List Byte := two (i % 65536).toNat
    let signed4 (i : Int) : List Byte := four (i % 4294967296).toNat
    let bit (x : Bool) : List Byte := one (if x then 1 else 0)
    let given (width : Nat) (x : Option (List Byte)) : List Byte :=
      x.elim (0#8 :: List.replicate width 0#8) (fun bytes => 1#8 :: bytes)
    let fields (xs : List (List Byte)) : List Byte := xs.flatten
    let listed (xs : List (List Byte)) : List Byte := one xs.length ++ xs.flatten
    let daylights (f : Daylight → List Byte) : List Byte := fields [f .d1, f .d2, f .d3, f .d4]
    let sources : List Source := [.openCircuit, .over, .limit]
    let variants (f : VariantSet) : Nat := (if f.a1 then 1 else 0) + (if f.a2 then 2 else 0) + (if f.a3 then 4 else 0)
    let zones (zs : List Zone) : Nat := ((Zone.all.filter (fun z => zs.contains z)).map (fun z => 2 ^ z.num)).sum
    let inForce (state : TripState) : List Byte :=
      one (Zone.all.filter (fun z => sources.any (fun src => decide ((s.trip z src).state = state)))).length
    s.tripPayload = fields [(Zone.all.map (fun z => fields (sources.map (fun src =>
        (let t := s.trip z src
        let value : List Byte := match t.onset with
          | some (_, .valid x) => fields [given 2 (some (two x)), given 1 none]
          | some (_, .invalid c) => fields [given 2 none, given 1 (some (one (if c = .openCircuit then 0 else 1)))]
          | none => fields [given 2 none, given 1 none]
        fields [one (match t.kind with | .cycle => 0 | .latch => 1),
          one (match t.state with | .none => 0 | .cycleInForce => 1 | .latchInForce => 2), bit t.present,
          given 5 (t.onset.map (fun x => four x.1.value ++ bit x.1.set)), value]))))).flatten,
      inForce .latchInForce, inForce .cycleInForce] ∧
    perDaylight s.cureFields = daylights (fun d =>
      (let shot := if (s.entry d).state = .awaitCommit then none else (s.entry d).shot
      let cure := shot.bind (·.cure)
      let own : Option CureState := if shot.isSome then some (s.cure.get d) else none
      let recipe : Option CureFields := if shot.isSome then s.activeRecipe.map (·.cure) else none
      let extreme (f : Four (Option (Nat × Nat)) → Option (Nat × Nat)) : List Byte :=
        given 4 ((cure.bind (fun c => f c.extremes)).map (fun x => two x.1 ++ two x.2))
      fields [one (s.entry d).state.code, given 1 ((shot.bind (·.outcome)).map (fun o => one o.code)),
        given 4 (cure.map (fun c => four c.index)), given 4 (cure.map (fun c => four (256 * c.target))),
        given 2 (cure.map (fun c => two ((256 * c.target - c.index + 255) / 256))),
        given 2 (cure.map (fun c => two c.seconds)), given 2 (recipe.map (fun r => two r.dwell)),
        given 2 (cure.bind (fun c => recipe.map (fun r => two (r.dwell - c.seconds)))),
        given 2 (cure.map (fun c => two c.paused)), given 2 (cure.map (fun c => two c.longest)),
        given 2 (own.map (fun x => two x.pause)), given 2 (recipe.map (fun r => two r.limit)),
        given 2 (own.bind (fun x => recipe.map (fun r => signed2 ((r.limit : Int) - x.pause)))),
        given 1 (own.map (fun x => one (match x.cls with | .none => 0 | .paused => 1 | .cold => 2 | .rated => 3))),
        given 5 (own.map (fun x =>
          fields [two (zones x.causes.invalid), two (zones x.causes.latched), bit x.causes.hold])),
        given 2 ((own.bind (·.tc)).map two), given 2 ((own.bind (·.rate)).map two),
        extreme (·.a1), extreme (·.a2), extreme (·.a3), extreme (·.a4), given 2 (recipe.map (fun r => two r.tref)),
        given 2 (recipe.map (fun r => two r.step)), given 2 (recipe.map (fun r => two r.tmin))])) ∧
    s.weigh.bytes = (let w := s.weigh
      let spread : Option Int := if w.filtered.length = 16 then some (w.filtered.max?.getD 0 - w.filtered.min?.getD 0) else none
      let wref : Option Nat := w.cal.bind (fun c => match c.kind with | .zeroing => none | .spanning wref _ => some wref)
      fields [given 4 (w.raw.map (fun x => signed4 x.1)), given 1 (w.raw.map (fun x => bit x.2)),
        given 4 (w.window.getLast?.map (fun x => signed4 x.1)), one w.window.length,
        given 4 (w.filtered.getLast?.map signed4), one w.filtered.length, given 4 (spread.map signed4),
        one (if w.settled then 0 else 1), given 4 (w.lastSettled.map signed4), bit w.overload, signed4 w.zero,
        two w.span, two w.band,
        one (w.cal.elim 0 (fun c => match c.kind with | .zeroing => 1 | .spanning _ _ => 2)),
        given 1 (w.cal.map (fun c => one c.port.num)), given 4 (wref.map four), given 1 (w.cal.map (fun c => one c.samples))]) ∧
    s.chargePayload = (let b := s.builder
      let building : Bool := b.charge.isSome
      let number (width : Nat) (f : ChargeInProgress → List Byte) : List Byte := given width (b.charge.map f)
      let weight (x : Option Int) : List Byte := given 4 (if building then x.map signed4 else none)
      let timer (x : Option Nat) : List Byte := given 4 (if building then x.map four else none)
      let state (x : BuilderState) : List Byte := one (match x with
        | .idle => 0 | .taring => 1 | .collecting => 2 | .recovery => 3 | .prefixWait => 4)
      fields [state b.state, number 4 (fun c => four c.number), number 1 (fun c => one c.daylight.num),
        number 1 (fun c => one c.slot.num), number 2 (fun c => two c.version), weight b.tare, weight b.reference,
        weight b.latest, bit building,
        listed (if building then b.pieces.map (fun x => signed4 x.weight ++ one (variants x.matched)) else []),
        number 1 (fun _ => one (variants b.live)),
        given 1 (if building then b.waiting.map (fun v => one v.num) else none), number 1 (fun _ => one b.wrongCount),
        timer b.tareTimer, timer b.gapTimer, timer b.recoveryTimer,
        given 1 (if building then b.recovery.map (fun r => state r.state) else none),
        given 4 (b.last.map (fun o => four o.number)), given 1 (b.last.map (fun o => bit o.rejected.isSome)),
        given 1 ((b.last.bind (·.rejected)).map (fun r => one r.code)), four b.nextNumber,
        listed (s.queue.map (fun e =>
          (let r := e.record
          fields [four r.number, one r.daylight.num, one (r.variant.elim 0 (·.num)), signed4 r.total, four e.age, two e.life,
            two (e.life - e.age), bit (decide ((s.entry r.daylight).state = .loadPermitted))])))]) ∧
    s.recipePayload = (let r := s.recipes
      let occupied (d : Daylight) : Bool := decide ((s.entry d).state ≠ .vacant ∧ (s.entry d).state ≠ .unknown)
      let idle : Bool := [Daylight.d1, .d2, .d3, .d4].all (fun d => !occupied d) &&
        decide (s.builder.state = .idle ∧ s.queue = [])
      fields [given 1 (r.active.map (fun k => one k.num)), given 2 (r.active.map (fun k => two (r.slots.get k).version)),
        two r.heatRevision, bit r.copy.isSome,
        given 1 (r.copy.map (fun c => one (match c.apply with | .atIdle => 0 | .heatNow => 1))),
        given 1 (r.copy.map (fun c => bit c.heatApplied)), given 138 (r.copy.map (fun c => c.record.bytes)),
        given 1 (r.selection.map (fun x => one (x.elim 255 (·.num)))), bit idle,
        given 1 (([Daylight.d1, .d2, .d3, .d4].find? occupied).map (fun d => one d.num)),
        given 1 (if idle then none else some (one s.builder.state.code)),
        given 1 (if idle then none else some (one s.queue.length))]) ∧
    s.historyPayload = (let h := s.history
      let reading (p : Port) : List Byte :=
        (let q := s.port p
        fields [bit q.cursorValid, four q.cursor,
          one (match q.read with | .idle => 0 | .waiting => 1 | .fetched _ => 2)])
      let waits (p : Port) (n : Nat) : Nat := if (s.port p).read = .waiting then n else 0
      fields [one (match h.memory with | .absent => 0 | .unformatted => 1 | .ready => 2 | .formatting => 3 | .fault => 4),
        given 1 (h.cause.map (fun c => one (match c with
          | .programTimeout => 0 | .eraseTimeout => 1 | .verify => 2 | .sequenceLimit => 3))),
        two h.sectors, given 2 (h.ringSize.map two), four h.oldest, four h.head, two h.writeSlot, four (h.oldest * 511),
        four (h.head * 511 + (h.writeSlot - 1)), four h.torn, one s.depth,
        one (if s.depth = 0 then 0 else if s.depth ≤ 3 then 1 else if s.depth ≤ 7 then 2 else 3), two s.commit.dropped,
        listed (s.commit.records.map (fun r =>
          one (match r with | .shot _ => 1 | .chargeReject _ => 2 | .heatTrip _ => 3))),
        given 1 (s.link.op.map (fun op => one (match op with
          | .flushProgram => 0 | .sectorErase _ => 0 | .sectorHeader _ => 0 | .portRead _ _ => 1
          | .settingsErase _ => 2 | .settingsProgram _ => 2 | .format _ => 3))),
        bit (h.format.any (fun f => !f.granted)), bit (s.recipes.save.any (fun r => !r.granted)),
        one (waits .p1 1 + waits .p2 2 + waits .p3 4), reading .p1, reading .p2, reading .p3])))

/-- A channel read answers with the fields of the channel named, written out byte by byte from the formats of R190 (trim code,
samples, one-second value, formed flag), a recipe read with those of the slot named, and both change no state; a number outside
the range is refused with BAD_VALUE (R44, R154). A port status read answers the port's own fields, its receive state
being WORKING (section 12.8; WORKING is the model's reading, log 22), and the three roles. The presence bytes and the codes are
the model's choice (log 19, log 20). -/
def Obligations.ChannelRecipeAndPortReads : Prop :=
  ∀ (p : Port) (b : List Byte) (s : State), (s.port p).recv = .request → (s.port p).role ∈ rolesAll →
    (∀ n : Byte, b = [n] →
      (∀ z, Zone.ofNat? n.toNat = some z →
        (let c := s.channel z
        let two (x : Nat) : List Byte := [BitVec.ofNat 8 x, BitVec.ofNat 8 (x / 256)]
        let sample (x : Sample) : List Byte := match x with
          | .openCircuit => [0#8, 0#8, 0#8, 0#8]
          | .overrange => [1#8, 0#8, 0#8, 0#8]
          | .valid x => [2#8, 1#8] ++ two x
        let value : List Byte := match c.value with
          | .valid x => [1#8] ++ two x ++ [0#8, 0#8]
          | .invalid cause => [0#8, 0#8, 0#8, 1#8, if cause = .openCircuit then 0#8 else 1#8]
        exec (.channelRead p b) s = .next (s.answered p ⟨.ok, 0,
          [BitVec.ofInt 8 c.trim, BitVec.ofNat 8 c.history.length] ++ c.history.flatMap sample ++ value
            ++ [if c.formed then 1#8 else 0#8]⟩))) ∧
      (9 < n.toNat → exec (.channelRead p b) s = .next (s.answered p ⟨.badValue, 0, []⟩)) ∧
      (∀ k, RecipeSlot.ofNat? n.toNat = some k → exec (.recipeRead p b) s = .next (s.answered p ⟨.ok, 0,
        flag (s.recipes.slots.get k).record.isNone ++ u16 (s.recipes.slots.get k).version
          ++ optional 138 ((s.recipes.slots.get k).record.map Recipe.bytes)
          ++ flag (decide (s.recipes.active = some k)) ++ flag (decide (s.recipes.selection = some (some k)))⟩)) ∧
      (7 < n.toNat → exec (.recipeRead p b) s = .next (s.answered p ⟨.badValue, 0, []⟩))) ∧
    (b = [] → exec (.portStatus p b) s = .next (s.answered p ⟨.ok, 0,
      u8 (s.port p).role.code ++ u8 2 ++ u8 (s.port p).slot.code
        ++ optional 1 ((s.port p).slot.kind.map (fun k => u8 k.code)) ++ u32 (s.port p).mask.toNat
        ++ u32 (s.port p).notices.toNat
        ++ u8 (s.port .p1).role.code ++ u8 (s.port .p2).role.code ++ u8 (s.port .p3).role.code⟩))

/-! ## Notices, long operations, clock, port restart -/

/-- R185: a notice read returns the set and the group summary, clears every kind it returns, sets again each level kind whose
condition is present, and leaves the mask; a notice mask write replaces the mask at once, and is refused with BAD_VALUE when
any of bits 19 to 31 is set; the attention line is asserted exactly while some kind is both set and enabled. Both are
refused to an OFF port. -/
def Obligations.NoticeReadAndMaskWrite : Prop :=
  (∀ (p : Port) (payload : List Byte) (s : State), (s.port p).recv = .request → (s.port p).role = .off →
    exec (.noticeRead p payload) s = .next (s.answered p ⟨.denied, 0, []⟩) ∧
    exec (.noticeMaskWrite p payload) s = .next (s.answered p ⟨.denied, 0, []⟩)) ∧
  (∀ (p : Port) (s : State), (s.port p).recv = .request → (s.port p).role ∈ rolesAll →
    (∃ t, exec (.noticeRead p []) s = .next t ∧ OtherPorts p s t ∧ Frame [.ports] s t ∧
      t.port p = { s.port p with
        recv := .working, notices := s.levelNotices
        response := some ⟨.ok, 0, u32 (s.port p).notices.toNat
          ++ u8 (bits [(s.port p).notices &&& 0x1F#32 != 0#32, (s.port p).notices &&& 0xE0#32 != 0#32,
            (s.port p).notices &&& 0x700#32 != 0#32, (s.port p).notices &&& 0x3800#32 != 0#32,
            (s.port p).notices &&& 0x7C000#32 != 0#32])⟩ }) ∧
    (∀ b0 b1 b2 b3 : Byte,
      (b2.toNat < 8 ∧ b3 = 0#8 → ∃ t, exec (.noticeMaskWrite p [b0, b1, b2, b3]) s = .next t ∧ OtherPorts p s t ∧
        Frame [.ports] s t ∧ t.port p = { s.port p with
          recv := .working, response := some ⟨.ok, 0, []⟩, mask := b3 ++ b2 ++ b1 ++ b0 }) ∧
      (8 ≤ b2.toNat ∨ b3 ≠ 0#8 →
        exec (.noticeMaskWrite p [b0, b1, b2, b3]) s = .next (s.answered p ⟨.badValue, 0, []⟩)))) ∧
  (∀ (p : Port) (s : State),
    ((s.port p).attention = true ↔ ∃ i, (s.port p).notices.getLsbD i = true ∧ (s.port p).mask.getLsbD i = true))

/-- An operation result read by the state of the port's slot (R183): IDLE is refused with NOTHING; RUNNING answers
IN_PROGRESS with the kind and changes nothing; DONE answers the kind and the result, and the slot becomes IDLE. -/
def Obligations.OperationResultByTheSlot : Prop :=
  ∀ (p : Port) (s : State), (s.port p).recv = .request → (s.port p).role ∈ rolesAll →
    ((s.port p).slot = .idle → exec (.operationResult p []) s = .next (s.answered p ⟨.nothing, 0, []⟩)) ∧
    (∀ kind op, (s.port p).slot = .running kind op →
      exec (.operationResult p []) s = .next (s.answered p ⟨.inProgress, 0, u8 kind.code⟩)) ∧
    (∀ kind status data, (s.port p).slot = .done kind status data →
      exec (.operationResult p []) s = .next { s with ports := s.ports.set p { s.port p with
        recv := .working, slot := .idle, response := some ⟨status, 0, u8 kind.code ++ data⟩ } })

/-- R186: the clock read, the clock set, the second (the uptime saturates, the shop clock wraps), the timestamp, and device
reset; no other command changes the Clock. A read is refused to an OFF port, a set to every role but SUPERVISOR. -/
def Obligations.ClockSetsCountsAndHolds : Prop :=
  (∀ (p : Port) (s : State), Taken Summary.clockRead p [] s → exec (.clockRead p []) s =
    .next (s.answered p ⟨.ok, 0, u32 s.clock.shop ++ flag s.clock.isSet ++ u32 s.clock.uptime⟩)) ∧
  (∀ (p : Port) (b0 b1 b2 b3 : Byte) (s : State), Taken Summary.clockSet p [b0, b1, b2, b3] s →
    exec (.clockSet p [b0, b1, b2, b3]) s = .next (({ s with clock := { s.clock with
      shop := b0.toNat + 256 * b1.toNat + 65536 * b2.toNat + 16777216 * b3.toNat, isSet := true } } : State).answered p
        ⟨.ok, 0, []⟩)) ∧
  (∀ (p : Port) (payload : List Byte) (s : State), (s.port p).recv = .request →
    ((s.port p).role = .off → exec (.clockRead p payload) s = .next (s.answered p ⟨.denied, 0, []⟩)) ∧
    ((s.port p).role ≠ .supervisor → exec (.clockSet p payload) s = .next (s.answered p ⟨.denied, 0, []⟩))) ∧
  (∀ s : State, exec .clockSecond s = .next { s with clock := { s.clock with
    uptime := min 4294967295 (s.clock.uptime + 1), shop := (s.clock.shop + 1) % 4294967296 } }) ∧
  (∀ s : State, (s.clock.isSet = true → s.stamp = ⟨s.clock.shop, true⟩) ∧
    (s.clock.isSet = false → s.stamp = ⟨s.clock.uptime, false⟩)) ∧
  (∀ straps memory (s t : State), exec (.deviceReset straps memory) s = .next t → t.clock = ⟨0, false, 0⟩) ∧
  (∀ (c : Instr) (s t : State), exec c s = .next t → c ≠ .clockSecond → (∀ p b, c ≠ .clockSet p b) →
    (∀ straps memory, c ≠ .deviceReset straps memory) → t.clock = s.clock)

/-- R187: a port restart empties the notice set but for the level kinds whose condition is present, disables all kinds (so
that the attention line deasserts), returns the long-operation slot to IDLE, makes the history cursor invalid and the read
state IDLE; a read of the port that the Memory Link is serving goes on with its answer discarded (R174). The role, the other
ports and every block of the cell are unchanged. It is refused to an OFF port. -/
def Obligations.PortRestartReturnsThePortToItsStart : Prop :=
  (∀ (p : Port) (payload : List Byte) (s : State), (s.port p).recv = .request → (s.port p).role = .off →
    exec (.portRestart p payload) s = .next (s.answered p ⟨.denied, 0, []⟩)) ∧
  (∀ (p : Port) (s : State), (s.port p).recv = .request → (s.port p).role ∈ rolesAll →
    ∃ t, exec (.portRestart p []) s = .next t ∧ OtherPorts p s t ∧ Frame [.ports, .link] s t ∧
      t.port p = { s.port p with
        recv := .working, response := some ⟨.ok, 0, []⟩, notices := s.levelNotices, mask := 0#32, slot := .idle
        cursor := (t.port p).cursor, cursorValid := false, read := .idle } ∧
      (t.port p).attention = false ∧
      (t.link = if ∃ d, s.link.op = some (.portRead p d) then { s.link with op := some (.portRead p true) } else s.link))

/-! ## Press lines -/

/-- A raw level that changes (R24): back to the debounced level it abandons the debounce interval; away from it, or while the
line has no debounced level, it starts 20 ms again. A level that the line already has is no change. While the qualification
timer runs (R25), the debounced levels form at the end of their intervals and nothing else changes: every interpreted level, the
mode, the faults and the heat hold stay. That a line named whose interval is not running keeps its level is the model's choice
(log 14). -/
def Obligations.RawLevelsAreDebounced : Prop :=
  (∀ (l : Line) (asserted : Bool) (s : State),
      ((s.lines.line.get l).raw = asserted → exec (.rawLevelChange l asserted) s = .next s) ∧
      ((s.lines.line.get l).raw ≠ asserted → ∃ t, exec (.rawLevelChange l asserted) s = .next t ∧
        t.lines.line.get l = { s.lines.line.get l with
          raw := asserted
          interval := if (s.lines.line.get l).debounced = some asserted then none else some 20 } ∧
        (∀ m, m ≠ l → t.lines.line.get m = s.lines.line.get m) ∧ t.lines.qualify = s.lines.qualify ∧
        t.lines.mode = s.lines.mode ∧ t.lines.faults = s.lines.faults ∧ t.lines.hold = s.lines.hold ∧ Frame [.lines] s t)) ∧
  (∀ (expired : List Line) (s : State), s.lines.qualify.isSome = true →
      ∃ t, exec (.debouncedLevelChange expired) s = .next t ∧
        (∀ l, t.lines.line.get l =
          if l ∈ expired ∧ (s.lines.line.get l).interval.isSome = true then
            { s.lines.line.get l with debounced := some (s.lines.line.get l).raw, interval := none }
          else s.lines.line.get l) ∧
        t.lines.qualify = s.lines.qualify ∧ t.lines.mode = s.lines.mode ∧ t.lines.faults = s.lines.faults ∧
        t.lines.hold = s.lines.hold ∧ Frame [.lines] s t)

/-- After the qualification period the debounced levels that change at one moment are taken into one recomputation (R24): the
interpreted levels, the mode, the faults and the heat hold follow from the debounced levels (R25 to R30), the onsets of
LINE_FAULT and of the heat hold are reported, and the ejectors act on the changes (R134, R136 to R139, R141, R142: see
State.EjectorsReported). The charge in progress goes on unless the mode leaves RUN. Nothing else changes. The order of the reports
inside one recomputation is the model's choice (log 16); so is that a line named whose interval is not running keeps its level
(log 14), and the eject limit of 20 s with no active recipe in State.EjectorsReported (log 25). -/
def Obligations.DebouncedLevelsAreInterpretedTogether : Prop :=
  ∀ (expired : List Line) (s : State), s.lines.qualify = none →
    (∃ l ∈ expired, (s.lines.line.get l).interval.isSome = true) →
    (let debounced (l : Line) : Option Bool :=
      if l ∈ expired ∧ (s.lines.line.get l).interval.isSome = true then some (s.lines.line.get l).raw
      else (s.lines.line.get l).debounced
    ∃ t, exec (.debouncedLevelChange expired) s = .next t ∧
      (∀ l, (t.lines.line.get l).raw = (s.lines.line.get l).raw ∧ (t.lines.line.get l).debounced = debounced l ∧
        (t.lines.line.get l).interval = if l ∈ expired then none else (s.lines.line.get l).interval) ∧
      t.Interpreted (fun l => (debounced l).getD (decide (l = .heatInhibit))) ∧ t.lines.qualify = none ∧
      OnsetsReported s t ∧ OnlyNotices s t ∧ (s.ejectorsKept → s.EjectorsReported t) ∧
      (s.builder.state = .idle ∨ s.lines.mode ≠ .run ∨ t.lines.mode = .run →
        Frame [.lines, .window, .board, .demould, .arbiter, .ports] s t) ∧
      Frame [.lines, .window, .board, .demould, .arbiter, .builder, .commit, .recipes, .ports] s t)

/-- When the qualification timer expires (R25), the lines are interpreted from the debounced levels formed so far, a line with
none keeping its reset interpretation, and every difference is reported as a change, on which the ejectors act as on any other
(State.EjectorsReported). The order of the reports is the model's choice (log 16), and so is the eject limit of 20 s with no
active recipe in State.EjectorsReported (log 25). An expiry with no timer running has no
effect (the model's choice, log 14). -/
def Obligations.QualificationExpiryInterpretsTheLines : Prop :=
  ∀ s : State,
    (s.lines.qualify.isSome = true → ∃ t, exec .qualificationExpiry s = .next t ∧
      (∀ l, (t.lines.line.get l).raw = (s.lines.line.get l).raw ∧
        (t.lines.line.get l).debounced = (s.lines.line.get l).debounced ∧
        (t.lines.line.get l).interval = (s.lines.line.get l).interval) ∧
      t.Interpreted (fun l => (s.lines.line.get l).debounced.getD (decide (l = .heatInhibit))) ∧ t.lines.qualify = none ∧
      OnsetsReported s t ∧ OnlyNotices s t ∧ (s.ejectorsKept → s.EjectorsReported t) ∧
      Frame [.lines, .window, .board, .demould, .arbiter, .builder, .commit, .recipes, .ports] s t) ∧
    (s.lines.qualify = none → exec .qualificationExpiry s = .next s)

/-- R12: when the interpreted MOULD_CLOSED becomes deasserted, by the line or by a contradictory pair, every CURING daylight
becomes HELD with outcome OPENED, with HELD and DAYLIGHT raised, and CURED, HELD and LOADED daylights are unaffected; a later
second finds the daylight no longer CURING and leaves it. -/
def Obligations.MouldOpeningHoldsEveryCuringDaylight : Prop :=
  (∀ (expired : List Line) (s : State), s.lines.qualify = none → s.ejectorsKept →
    (∃ l ∈ expired, (s.lines.line.get l).interval.isSome = true) → s.level .mouldClosed = true →
    ∃ t, exec (.debouncedLevelChange expired) s = .next t ∧ (t.level .mouldClosed = false →
      (∀ d, (s.entry d).state = .curing →
        t.entry d = { s.entry d with
          state := .held, shot := (s.entry d).shot.map (fun r => { r with outcome := some .opened }) } ∧
        Raised .held t ∧ Raised .daylight t) ∧
      (∀ d, (s.entry d).state ∈ [.cured, .held, .loaded] → t.entry d = s.entry d))) ∧
  (∀ s : State, ∃ t, exec .perSecondAccounting s = .next t ∧
    ∀ d, (s.entry d).state ≠ .curing → t.entry d = s.entry d ∧ t.cure.get d = s.cure.get d)

/-! ## Temperature sensing -/

/-- R34, R35, R37: at the end of a sample period every channel's history takes the sample of its input: OPEN before OVERRANGE
before VALID, a valid reading corrected by five times the trim code and clamped; the oldest of four leaves. No
other command but DEVICE_RESET changes a history. -/
def Obligations.SampleJoinsEveryHistory : Prop :=
  (∀ (inputs : Ten Reading) (s : State),
    (let sample (trim : Int) : Reading → Sample
      | .broken => .openCircuit
      | .level r => if 4000 < r then .overrange else .valid (min 4000 (max 0 (max 0 r + 5 * trim))).toNat
    ∃ t, exec (.sampleComplete inputs) s = .next t ∧ Frame [.channels, .periods] s t ∧
      ∀ z, t.channel z = { s.channel z with
        history := ((s.channel z).history ++ [sample (s.channel z).trim (inputs.get z)]).drop
          ((s.channel z).history.length - 3) })) ∧
  (∀ (c : Instr) (s t : State), exec c s = .next t → (∀ inputs, c ≠ .sampleComplete inputs) →
    (∀ straps memory, c ≠ .deviceReset straps memory) → ∀ z, (t.channel z).history = (s.channel z).history)

/-- R33, R38, R39: at a second boundary, the end of the fourth sample period, every channel with its four samples forms its
one-second value: the truncated mean of the VALID temperatures when at least three samples are VALID, otherwise invalid with the
kind of the newest sample that is not VALID; the formed flag is set, and the window clock counts the boundary (R47), a
window start that is due staying due (DEDUCED, log 53). At another moment there is no boundary and nothing changes, and a second whose boundary was not taken is
over with the next period: both DEDUCED (log 31). No other command but DEVICE_RESET changes a one-second value or a formed flag,
and none but those two and WINDOW_START moves the window clock. -/
def Obligations.SecondBoundaryFormsTheValues : Prop :=
  (∀ s : State, s.periods = 4 → ∃ t, exec .secondBoundary s = .next t ∧ Frame [.channels, .periods, .window] s t ∧
    t.periods = 0 ∧ t.window = { s.window with untilStart := s.window.untilStart - 1 } ∧
    ∀ z, (s.channel z).history.length = 4 →
      (let temps := (s.channel z).history.filterMap (fun x => match x with | .valid n => some n | _ => none)
      (t.channel z).history = (s.channel z).history ∧ (t.channel z).trim = (s.channel z).trim ∧
        (t.channel z).formed = true ∧
        (3 ≤ temps.length → (t.channel z).value = .valid (temps.sum / temps.length)) ∧
        (temps.length < 3 → ∀ older newer,
          (∀ x ∈ newer, ∃ n, x = Sample.valid n) →
          ((s.channel z).history = older ++ .openCircuit :: newer → (t.channel z).value = .invalid .openCircuit) ∧
          ((s.channel z).history = older ++ .overrange :: newer → (t.channel z).value = .invalid .overrange)))) ∧
  (∀ s : State, s.periods ≠ 4 → exec .secondBoundary s = .next s) ∧
  (∀ (inputs : Ten Reading) (s t : State), exec (.sampleComplete inputs) s = .next t →
    t.periods = if s.periods < 4 then s.periods + 1 else 1) ∧
  (∀ (c : Instr) (s t : State), exec c s = .next t → c ≠ .secondBoundary →
    (∀ straps memory, c ≠ .deviceReset straps memory) →
    (∀ z, (t.channel z).value = (s.channel z).value ∧ (t.channel z).formed = (s.channel z).formed) ∧
      (c ≠ .windowStart → t.window.untilStart = s.window.untilStart))

/-! ## Writes of single settings -/

/-- The writes that store one value in force or pending: a trim code clamped to −8 to 7 (R36), a window length clamped to 2 to
30 and pending (R48), gains clamped to 0 to 255 (R61), a stability band clamped to 1 to 255 (R104), a permit time clamped to
5 to 120 (R156). Each answers OK_CLAMPED when a clamp changed the value and OK otherwise, sets SETTINGS_CHANGED (R155), also where
the value written is the one held (DEDUCED, log 15), and changes nothing else. -/
def Obligations.SettingWritesClampAndStore : Prop :=
  ∀ (p : Port) (s : State), (s.port p).recv = .request → (s.port p).role = .supervisor →
    (let answer (clamped : Bool) : Response := ⟨if clamped then .okClamped else .ok, 0, []⟩
    let changed (t : State) : State := { t with recipes := { s.recipes with changed := true } }
    (∀ n x : Byte, ∀ z, Zone.ofNat? n.toNat = some z →
      exec (.trimWrite p [n, x]) s = .next ((changed { s with
        channels := s.channels.set z { s.channel z with trim := max (-8) (min 7 x.toInt) } }).answered p
          (answer (decide (x.toInt < -8 ∨ 7 < x.toInt))))) ∧
    (∀ n : Byte, exec (.windowLengthSet p [n]) s = .next ((changed { s with
      window := { s.window with pending := some (max 2 (min 30 n.toNat)) } }).answered p
        (answer (decide (n.toNat < 2 ∨ 30 < n.toNat))))) ∧
    (∀ n a b c d : Byte, ∀ z, Zone.ofNat? n.toNat = some z →
      exec (.gainsWrite p [n, a, b, c, d]) s = .next ((changed { s with
        zones := s.zones.set z { s.zone z with
          kp := min 255 (a.toNat + 256 * b.toNat), ki := min 255 (c.toNat + 256 * d.toNat) } }).answered p
          (answer (decide (b ≠ 0#8 ∨ d ≠ 0#8))))) ∧
    (∀ a b : Byte, exec (.stabilityBandWrite p [a, b]) s = .next ((changed { s with
      weigh := { s.weigh with band := max 1 (min 255 (a.toNat + 256 * b.toNat)) } }).answered p
        (answer (decide (a.toNat + 256 * b.toNat = 0 ∨ 255 < a.toNat + 256 * b.toNat))))) ∧
    (∀ a b : Byte, exec (.permitTimeWrite p [a, b]) s = .next ((changed { s with
      board := { s.board with permitTime := max 5 (min 120 (a.toNat + 256 * b.toNat)) } }).answered p
        (answer (decide (a.toNat + 256 * b.toNat < 5 ∨ 120 < a.toNat + 256 * b.toNat))))) ∧
    (∀ n x a b c d : Byte, 9 < n.toNat →
      exec (.trimWrite p [n, x]) s = .next (s.answered p ⟨.badValue, 0, []⟩) ∧
      exec (.gainsWrite p [n, a, b, c, d]) s = .next (s.answered p ⟨.badValue, 0, []⟩)))

/-! ## Zone control and the heater budget -/

/-- A window start that is due, at the second boundary that ends a window of W seconds or the first one after a device reset (R47),
does the work of R49, and the window clock starts on the W in force: pending values take effect, cycle trips whose condition is absent end (R71), every zone that computes
makes its request by the PI computation (R53, R54), the budget grants the duties (R55, R56), the shadow duties become active
(R52, R62), and the window restarts (R63, R64): an output is then on exactly where the on-time is not 0, no trip of the zone is in
force and no heat hold is. That a zone with a trip or the hold in force is kept off for the whole window (the field `blocked`) is
DEDUCED (log 42), and so is that its window-cut flag is cleared all the same (log 51). At another moment a WINDOW_START has no
effect, which is DEDUCED (log 53). The quantities of the right-hand sides are read after step 1, as the rules say. -/
def Obligations.WindowStartComputesGrantsAndTransfers : Prop :=
  (∀ s : State, s.budgetKept → s.window.untilStart = 0 → ∃ t, exec .windowStart s = .next t ∧
    OnlyNotices s t ∧ Frame [.budget, .window, .zones, .trips, .recipes, .board, .ports] s t ∧
    t.budget.inForce = s.budget.pending.getD s.budget.inForce ∧ t.budget.pending = none ∧
    t.window.length = s.window.pending.getD s.window.length ∧ t.window.pending = none ∧ t.window.phase = 0 ∧
    t.window.untilStart = t.window.length ∧
    (∀ z, t.window.cut.get z = false ∧ t.window.onTime.get z = (t.zone z).duty * t.window.length ∧
      t.window.blocked.get z = (t.tripInForce z || t.heatHold) ∧
      t.heaterOutput z = (decide (0 < t.window.onTime.get z) && !(t.tripInForce z) && !t.heatHold) ∧
      (t.zone z).mode = (s.zone z).nextMode ∧ (t.zone z).pendingMode = none ∧
      (t.zone z).weight = (s.zone z).nextWeight ∧ (t.zone z).pendingWeight = none ∧
      (t.zone z).kp = (s.zone z).kp ∧ (t.zone z).ki = (s.zone z).ki) ∧
    (∀ z src, t.trip z src =
      if (s.trip z src).state = .cycleInForce ∧ t.condition z src = false then
        { s.trip z src with state := .none, onset := none } else s.trip z src) ∧
    (let fixed : Nat := Ten.sum (fun z =>
      if (t.zone z).mode = .frozen ∨ (t.zone z).mode = .manual then (t.zone z).weight * (t.zone z).duty else 0)
    let demand : Nat := Ten.sum (fun z => if (t.zone z).mode = .auto then (t.zone z).weight * (t.zone z).request else 0)
    t.budget.fixed = fixed ∧ fixed ≤ t.budget.inForce ∧ t.budget.available = t.budget.inForce - fixed ∧
      t.budget.demand = demand ∧ t.budget.scaled = decide (t.budget.available < demand) ∧
    (∀ z, (t.zone z).mode = .frozen → (t.zone z).duty = (s.zone z).duty ∧ (t.zone z).shadow = (s.zone z).shadow ∧
      (t.zone z).integ = (s.zone z).integ ∧ (t.zone z).unclamped = (s.zone z).unclamped ∧ (t.zone z).request = 0 ∧
      (t.zone z).shadowPending = (s.zone z).shadowPending ∧ (t.zone z).heldHigh = false) ∧
    (∀ z, (t.zone z).mode = .manual → (t.zone z).duty = (s.zone z).shadowValue ∧
      (t.zone z).shadow = (s.zone z).shadow ∧ (t.zone z).shadowPending = false ∧
      (t.zone z).integ = (s.zone z).integ ∧ (t.zone z).unclamped = (s.zone z).unclamped ∧ (t.zone z).request = 0 ∧
      (t.zone z).heldHigh = false) ∧
    (∀ z, (t.zone z).mode = .off → (t.zone z).duty = 0 ∧ (t.zone z).shadow = some 0 ∧ (t.zone z).request = 0 ∧
      (t.zone z).heldHigh = false ∧ (t.zone z).shadowPending = false ∧
      ((s.zone z).mode ≠ .off → (t.zone z).integ = 0 ∧ (t.zone z).unclamped = 0) ∧
      ((s.zone z).mode = .off → (t.zone z).integ = (s.zone z).integ ∧ (t.zone z).unclamped = (s.zone z).unclamped)) ∧
    (∀ z, (t.zone z).mode = .auto →
      (t.zone z).duty = (if demand ≤ t.budget.available then (t.zone z).request
        else (t.zone z).request * t.budget.available / demand) ∧
      (t.zone z).shadow = some (t.zone z).duty ∧ (t.zone z).shadowPending = false ∧
      (∀ setpoint temperature, t.setpoint z = some setpoint → (s.channel z).value = .valid temperature →
        t.tripInForce z = false → s.heatHold = false →
        (let e : Int := max (-500) (min 500 ((setpoint : Int) - temperature))
        let held : Bool := (s.zone z).heldHigh && decide ((s.zone z).mode = .auto)
        (t.zone z).integ =
            (if 0 < e ∧ held = true then (s.zone z).integ
              else (max 0 (min 16000 ((s.zone z).integ + (s.zone z).ki * e))).toNat) ∧
          (t.zone z).unclamped = Int.tdiv ((s.zone z).kp * e) 16 + ((t.zone z).integ / 16 : Nat) ∧
          (t.zone z).request = (max 0 (min 1000 (t.zone z).unclamped)).toNat ∧
          (t.zone z).heldHigh = decide (((t.zone z).duty : Int) < (t.zone z).unclamped))) ∧
      ((t.activeRecipe = none ∨ (∃ cause, (s.channel z).value = .invalid cause) ∨ t.tripInForce z = true ∨
          s.heatHold = true) →
        (t.zone z).request = 0 ∧ (t.zone z).unclamped = 0 ∧ (t.zone z).heldHigh = false ∧
          (t.zone z).integ = (s.zone z).integ)))) ∧
  (∀ s : State, s.window.untilStart ≠ 0 → exec .windowStart s = .next s)

/-- A HEAT_NOW copy applies at a window start, one that is due (R47, R150): its heat fields replace those of the active record, whose version stays;
the heat revision rises by one, saturating; each CURING shot is marked HEAT_REVISED; RECIPE_APPLIED is raised and
SETTINGS_CHANGED set; the copy stays pending, marked, exactly when its other fields differ. With no such copy pending, no
recipe and no shot changes. -/
def Obligations.HeatNowAppliesAtWindowStart : Prop :=
  ∀ s : State, s.window.untilStart = 0 → ∃ t, exec .windowStart s = .next t ∧
    (∀ c k r, s.recipes.copy = some c → s.recipes.active = some k → (s.recipes.slots.get k).record = some r →
      c.apply = .heatNow → c.heatApplied = false →
      t.recipes.slots.get k = { record := some { r with heat := c.record.heat }, version := s.slotVersion k } ∧
      (∀ j, j ≠ k → t.recipes.slots.get j = s.recipes.slots.get j) ∧ t.recipes.active = some k ∧
      t.recipes.heatRevision = min 65535 (s.recipes.heatRevision + 1) ∧ t.recipes.changed = true ∧
      t.recipes.copy = (if c.record = { r with heat := c.record.heat } then none else some { c with heatApplied := true }) ∧
      t.recipes.selection = s.recipes.selection ∧ Raised .recipeApplied t ∧
      ∀ d, t.entry d = if (s.entry d).state = .curing then
        { s.entry d with shot := (s.entry d).shot.map (fun x => { x with heatRevised := true }) } else s.entry d) ∧
    ((s.recipes.copy = none ∨ (∃ c, s.recipes.copy = some c ∧ (c.apply = .atIdle ∨ c.heatApplied = true))) →
      t.recipes = s.recipes ∧ t.board = s.board ∧ t.ports = s.ports)


/-- A heater output is off whenever its zone has a trip in force or a heat hold is in force, and whenever the zone's on-time is
0 or its window-cut flag is set (R63, R64). An on-time shorter than the window that ends turns the output off, and nothing
else changes. No output is turned on between window starts (R63, R64, R76): no command but a window start and a device reset, and
no millisecond of an empty queue, turns a heater output on. The premise is the invariant State.outputsKept. That an output kept off at a
window start stays off for the whole window is read from R30, R50, R63 and R76 together (DEDUCED, log 42). An output whose on-time
is the whole window stays on through every millisecond until the next window start (R63). That HEATER_ON_TIME_END puts the phase
at the on-time, and has no effect for an on-time of the whole window, is the model's choice (log 29). -/
def Obligations.HeaterOutputsTurnOnOnlyAtWindowStarts : Prop :=
  (∀ (s : State) (z : Zone), s.tripInForce z = true ∨ s.heatHold = true ∨ s.window.onTime.get z = 0 ∨
    s.window.cut.get z = true → s.heaterOutput z = false) ∧
  (∀ (s : State) (z : Zone), ∃ t, exec (.heaterOnTimeEnd z) s = .next t ∧ Frame [.window] s t ∧
    (s.window.onTime.get z < s.window.length * 1000 → t.heaterOutput z = false ∧
      t.window = { s.window with phase := max s.window.phase (s.window.onTime.get z) }) ∧
    (s.window.length * 1000 ≤ s.window.onTime.get z → t = s)) ∧
  (∀ (s t : State) (z : Zone), s.outputsKept → s.heaterOutput z = false → step s = .next t →
      (∀ rest, s.pending ≠ .windowStart :: rest) → (∀ straps memory rest, s.pending ≠ .deviceReset straps memory :: rest) →
      t.heaterOutput z = false) ∧
  (∀ (s t : State) (z : Zone), s.window.onTime.get z = s.window.length * 1000 → s.heaterOutput z = true → s.pending = [] →
      step s = .next t → t.heaterOutput z = true)

/-- A zone mode set (R51): the mode named becomes the next mode, naming the current mode clears the pending one. Into MANUAL
from another next mode the shadow duty is the active duty, limited as a manual duty write is; FROZEN is refused with
BUDGET_BELOW_FIXED when the next fixed load would exceed the write bound; a next mode other than MANUAL discards a pending
shadow value: the shadow of an OFF zone is then 0 (R62), that of any other zone empty (the model's choice, log 26). A zone
above 9 and a mode code above 3 are refused with BAD_VALUE. -/
def Obligations.ZoneModeSetBecomesTheNextMode : Prop :=
  (∀ (p : Port) (n m : Byte) (s : State), (s.port p).recv = .request → (s.port p).role = .supervisor →
    9 < n.toNat ∨ 3 < m.toNat → exec (.zoneModeSet p [n, m]) s = .next (s.answered p ⟨.badValue, 0, []⟩)) ∧
  ∀ (p : Port) (n m : Byte) (z : Zone) (mode : ZoneMode) (s : State), (s.port p).recv = .request →
    (s.port p).role = .supervisor → Zone.ofNat? n.toNat = some z → zoneModeOf m.toNat = some mode →
    (let x := s.zone z
    let others : Nat := Ten.sum (fun y => if y = z then 0 else (s.zone y).nextFixed)
    let pending : Option ZoneMode := if mode = x.mode then none else some mode
    let set (y : ZoneControl) : State := { s with zones := s.zones.set z y }
    let largest : Nat := min (min 1000 x.duty) ((s.budget.writeBound - others) / x.nextWeight)
    let refused : Bool := decide (mode = .frozen ∧ s.budget.writeBound < others + x.nextWeight * x.duty)
    exec (.zoneModeSet p [n, m]) s =
      if refused = true then .next (s.answered p ⟨.budgetBelowFixed, 0, []⟩)
      else if mode = .manual then
        if x.nextMode = .manual then .next ((set { x with pendingMode := pending }).answered p ⟨.ok, 0, []⟩)
        else .next ((set { x with pendingMode := pending, shadow := some largest, shadowPending := true }).answered p
          ⟨if largest = x.duty then .ok else .okClamped, 0, []⟩)
      else .next ((set { x with
        pendingMode := pending, shadow := if x.shadowPending then (if x.mode = .off then some 0 else none) else x.shadow
        shadowPending := false }).answered p
          ⟨.ok, 0, []⟩))


/-- A manual duty write (R58): refused with WRONG_STATE and the next mode unless that is MANUAL; otherwise the duty, clamped
to 0 to 1000 and then to the largest that keeps the next fixed load within the write bound, becomes the shadow duty. A budget set
(R59) and a load weight write (R60): each is clamped, refused with BUDGET_BELOW_FIXED when the next fixed load would not fit, and
otherwise pending until the next window start, and sets SETTINGS_CHANGED (R155), also where the value is the one held (DEDUCED,
log 15). A zone above 9 is refused with BAD_VALUE. -/
def Obligations.DutyBudgetAndWeightWritesAreChecked : Prop :=
  (∀ (p : Port) (n a b : Byte) (z : Zone) (s : State), (s.port p).recv = .request → (s.port p).role = .supervisor →
      Zone.ofNat? n.toNat = some z →
      (let others : Nat := Ten.sum (fun y => if y = z then 0 else (s.zone y).nextFixed)
      let written : Nat := a.toNat + 256 * b.toNat
      let duty : Nat := min (min 1000 written) ((s.budget.writeBound - others) / (s.zone z).nextWeight)
      ((s.zone z).nextMode ≠ .manual → exec (.manualDutyWrite p [n, a, b]) s =
        .next (s.answered p ⟨.wrongState, (s.zone z).nextMode.code, []⟩)) ∧
      ((s.zone z).nextMode = .manual → exec (.manualDutyWrite p [n, a, b]) s =
        .next (({ s with zones := s.zones.set z { s.zone z with shadow := some duty, shadowPending := true } } :
          State).answered p ⟨if duty = written then .ok else .okClamped, 0, u16 duty⟩)))) ∧
  (∀ (p : Port) (s : State), (s.port p).recv = .request → (s.port p).role = .supervisor →
      (∀ a b c d : Byte,
        (let written : Nat := a.toNat + 256 * b.toNat + 65536 * c.toNat + 16777216 * d.toNat
        let value : Nat := min 150000 written
        (value < nextFixedLoad s.zones → exec (.budgetSet p [a, b, c, d]) s =
          .next (s.answered p ⟨.budgetBelowFixed, 0, u32 (nextFixedLoad s.zones)⟩)) ∧
        (nextFixedLoad s.zones ≤ value → exec (.budgetSet p [a, b, c, d]) s =
          .next (({ s with
            budget := { s.budget with pending := some value }, recipes := { s.recipes with changed := true } } :
              State).answered p ⟨if value = written then .ok else .okClamped, 0, []⟩)))) ∧
      (∀ (n w : Byte) (z : Zone), Zone.ofNat? n.toNat = some z →
        (let weight : Nat := max 1 (min 15 w.toNat)
        let others : Nat := Ten.sum (fun y => if y = z then 0 else (s.zone y).nextFixed)
        let own : Nat := match (s.zone z).nextMode with
          | .frozen => weight * (s.zone z).duty
          | .manual => weight * (s.zone z).shadowValue
          | _ => 0
        let fixedZone : Bool := decide ((s.zone z).nextMode = .frozen ∨ (s.zone z).nextMode = .manual)
        (fixedZone = true ∧ s.budget.writeBound < others + own → exec (.loadWeightWrite p [n, w]) s =
          .next (s.answered p ⟨.budgetBelowFixed, 0, []⟩)) ∧
        (fixedZone = false ∨ others + own ≤ s.budget.writeBound → exec (.loadWeightWrite p [n, w]) s =
          .next (({ s with
            zones := s.zones.set z { s.zone z with pendingWeight := some weight }
            recipes := { s.recipes with changed := true } } : State).answered p
              ⟨if weight = w.toNat then .ok else .okClamped, 0, []⟩)))) ∧
      (∀ n a b : Byte, 9 < n.toNat → exec (.manualDutyWrite p [n, a, b]) s = .next (s.answered p ⟨.badValue, 0, []⟩) ∧
        exec (.loadWeightWrite p [n, a]) s = .next (s.answered p ⟨.badValue, 0, []⟩)))

/-- At every moment the sum over the ten zones of load weight × active duty does not exceed the budget in force, and the next
fixed load does not exceed the write bound (R56, R57): every step keeps it. -/
def Obligations.HeaterBudgetKeptByEveryStep : Prop :=
  ∀ s t : State, s.budgetKept → step s = .next t → t.budgetKept


/-! ## Heat trips -/

/-- The per-second test (R68, R69): every formed channel's condition flags are set as the table of section 5.1 gives; every
source whose condition is present and whose trip state is NONE takes its onset by its configured kind, with its time and
value, and its zone's window-cut flag; a cycle onset raises TRIP_CYCLE (R71), a latched one TRIP (R72); nothing ends. Each latched
onset offers its HEAT_TRIP record (R72, R73), admitted while the depth is 7 or less and otherwise dropped and counted (R160), and
counts in the trips during cure of every CURING shot that its zone bounds (R74), saturating at 255. The order of the onsets, zones
and then sources ascending, is the model's choice (log 17); that the record names the shot of an AWAIT_COMMIT daylight too is
DEDUCED (log 23). -/
def Obligations.PerSecondTestTakesOnsets : Prop :=
  ∀ s : State, ∃ t, exec .perSecondTest s = .next t ∧ OnlyNotices s t ∧
    Frame [.trips, .window, .commit, .board, .ports] s t ∧
    (let present (z : Zone) : Source → Bool
      | .openCircuit => (match (s.channel z).value with | .invalid _ => true | .valid _ => false)
      | .over => (match (s.channel z).value, s.activeRecipe with
        | .valid x, some r => decide (r.setpoint z + r.heat.overBand < x)
        | _, _ => false)
      | .limit => (match (s.channel z).value with | .valid x => decide (3500 < x) | .invalid _ => false)
    let onset (z : Zone) (src : Source) : Bool :=
      (s.channel z).formed && present z src && decide ((s.trip z src).state = .none)
    let latched : List (Zone × Source) :=
      (Zone.all.flatMap (fun z => [(z, Source.openCircuit), (z, .over), (z, .limit)])).filter (fun x =>
        onset x.1 x.2 && decide ((s.trip x.1 x.2).kind = .latch))
    let named (d : Daylight) : TripDaylight := ⟨d, (s.entry d).state, s.shotNumber d⟩
    let records : List HistRecord := latched.map (fun x => .heatTrip {
      zone := x.1, source := x.2, value := (s.channel x.1).value, setpoint := s.setpoint x.1
      overBand := s.activeRecipe.map (·.heat.overBand), time := s.stamp
      below := x.1.platen.below.map named, above := x.1.platen.above.map named })
    let places : Nat := 8 - s.depth
    let against (d : Daylight) : Nat := (latched.filter (fun x => decide (x.1 ∈ d.bounding.toList))).length
    (∀ z src, (t.trip z src).kind = (s.trip z src).kind ∧
      (t.trip z src).present = (if (s.channel z).formed then present z src else (s.trip z src).present) ∧
      (onset z src = true → (t.trip z src).onset = some (s.stamp, (s.channel z).value) ∧
        t.window.cut.get z = true ∧ t.heaterOutput z = false ∧
        ((s.trip z src).kind = .cycle → (t.trip z src).state = .cycleInForce ∧ Raised .tripCycle t) ∧
        ((s.trip z src).kind = .latch → (t.trip z src).state = .latchInForce ∧ Raised .trip t)) ∧
      (onset z src = false →
        (t.trip z src).state = (s.trip z src).state ∧ (t.trip z src).onset = (s.trip z src).onset)) ∧
    (∀ z, (∀ src, onset z src = false) → t.window.cut.get z = s.window.cut.get z) ∧
    t.window = { s.window with cut := t.window.cut } ∧
    t.commit.records = s.commit.records ++ records.take places ∧
    (records.length ≤ places → t.commit.dropped = s.commit.dropped) ∧
    (places < records.length → t.commit.dropped = min 65535 (s.commit.dropped + (records.length - places)) ∧
      Raised .dropped t) ∧
    (∀ d, t.entry d = if (s.entry d).state = .curing then
      { s.entry d with shot := (s.entry d).shot.map (fun x => { x with cure := x.cure.map (fun c => { c with
        trips := if against d = 0 then c.trips else min 255 (c.trips + against d) }) }) } else s.entry d) ∧
    t.board.nextShot = s.board.nextShot ∧ t.board.permitTime = s.board.permitTime ∧
    ((∀ z src, onset z src = false) → t.ports = s.ports))


/-- A trip clear (R75): a source that is none of the three is refused with BAD_VALUE; a source without a latched trip in force
with NONE and its trip state in the detail; one whose condition is present with ACTIVE and the zone's value; otherwise the
trip state becomes NONE and the onset absent, and nothing else changes. A trip kind set (R77): LIMIT, an unknown source and an
unknown kind are refused with BAD_VALUE; otherwise the configured kind changes at once, a trip in force keeps its kind (R70), and
SETTINGS_CHANGED is set (R155), also where the kind is the one held (DEDUCED, log 15). A zone above 9 is refused with BAD_VALUE. The layout of the value in the ACTIVE answer is the model's choice (log 19). -/
def Obligations.TripsAreClearedAndTheirKindsSet : Prop :=
  (∀ (p : Port) (n k : Byte) (z : Zone) (s : State), (s.port p).recv = .request →
      ((s.port p).role = .press ∨ (s.port p).role = .supervisor) → Zone.ofNat? n.toNat = some z →
      (2 < k.toNat → exec (.tripClear p [n, k]) s = .next (s.answered p ⟨.badValue, 0, []⟩)) ∧
      (∀ src, k.toNat = src.code →
        ((s.trip z src).state ≠ .latchInForce →
          exec (.tripClear p [n, k]) s = .next (s.answered p ⟨.none, (s.trip z src).state.code, []⟩)) ∧
        ((s.trip z src).state = .latchInForce → (s.trip z src).present = true →
          exec (.tripClear p [n, k]) s = .next (s.answered p ⟨.active, 0, (s.channel z).value.bytes⟩)) ∧
        ((s.trip z src).state = .latchInForce → (s.trip z src).present = false →
          exec (.tripClear p [n, k]) s = .next (({ s with trips := s.trips.set z ((s.trips.get z).set src
            { s.trip z src with state := .none, onset := none }) } : State).answered p ⟨.ok, 0, []⟩)))) ∧
  (∀ (p : Port) (n k x : Byte) (z : Zone) (s : State), (s.port p).recv = .request → (s.port p).role = .supervisor →
      Zone.ofNat? n.toNat = some z →
      (1 < k.toNat ∨ 1 < x.toNat → exec (.tripKindSet p [n, k, x]) s = .next (s.answered p ⟨.badValue, 0, []⟩)) ∧
      (k.toNat ≤ 1 → x.toNat ≤ 1 →
        (let src : Source := if k.toNat = 0 then .openCircuit else .over
        let kind : TripKind := if x.toNat = 0 then .cycle else .latch
        exec (.tripKindSet p [n, k, x]) s = .next (({ s with
          trips := s.trips.set z ((s.trips.get z).set src { s.trip z src with kind := kind })
          recipes := { s.recipes with changed := true } } : State).answered p ⟨.ok, 0, []⟩)))) ∧
  (∀ (p : Port) (n k x : Byte) (s : State), (s.port p).recv = .request → 9 < n.toNat →
      ((s.port p).role = .press ∨ (s.port p).role = .supervisor →
        exec (.tripClear p [n, k]) s = .next (s.answered p ⟨.badValue, 0, []⟩)) ∧
      ((s.port p).role = .supervisor → exec (.tripKindSet p [n, k, x]) s = .next (s.answered p ⟨.badValue, 0, []⟩)))

/-- A latched trip ends only by a trip clear taken while its condition is absent, or by device reset (R75), whatever is done
to its configured kind meanwhile (R70). -/
def Obligations.LatchedTripEndsOnlyByClearOrReset : Prop :=
  ∀ (c : Instr) (s t : State) (z : Zone) (src : Source), exec c s = .next t → (s.trip z src).state = .latchInForce →
    (t.trip z src).state = .latchInForce ∨
    (∃ straps memory, c = .deviceReset straps memory) ∨
    (∃ p b, c = .tripClear p b ∧ zoneOf b = some z ∧ byteAt b 1 = src.code ∧ (s.trip z src).present = false)


/-! ## Cure accounting -/

/-- The accounted second of every CURING daylight (R84 to R93), once the channels have formed their values: it is paused by an
invalid value or a latched trip of a bounding zone or by the heat hold, cold below the minimum cure temperature, and rated
otherwise by the doubling table of R91; a pause past the interruption limit makes the shot HELD with outcome INTERRUPTED (R87),
and a shot whose index and dwell are complete becomes CURED (R93). No other daylight is touched. That nothing is accounted
before the values have formed is DEDUCED from R40 (log 31). -/
def Obligations.AccountedSecondIsPausedColdOrRated : Prop :=
  (∀ (s : State) (r : Recipe), s.activeRecipe = some r → (∀ z, (s.channel z).formed = true) →
    ∃ t, exec .perSecondAccounting s = .next t ∧ Frame [.cure, .board, .ports] s t ∧ OnlyNotices s t ∧
      t.board.nextShot = s.board.nextShot ∧ t.board.permitTime = s.board.permitTime ∧
      (∀ d, (s.entry d).state ≠ .curing → t.entry d = s.entry d ∧ t.cure.get d = s.cure.get d) ∧
      ∀ d x c, (s.entry d).state = .curing → (s.entry d).shot = some x → x.cure = some c →
        (let zones := d.bounding.toList
        let invalid := zones.filter (fun z => match (s.channel z).value with | .invalid _ => true | .valid _ => false)
        let latched := zones.filter s.latchInForce
        let paused : Bool := !invalid.isEmpty || !latched.isEmpty || s.heatHold
        let pause := (s.cure.get d).pause + 1
        let ended (c' : ShotCure) : Prop :=
          if 256 * c'.target ≤ c'.index ∧ r.cure.dwell ≤ c'.seconds then
            t.entry d = { s.entry d with
              state := .cured, shot := some { x with cure := some c', cured := some s.stamp } } ∧
            Raised .cured t ∧ Raised .daylight t
          else t.entry d = { s.entry d with shot := some { x with cure := some c' } }
        (paused = true →
          (let c' : ShotCure := { c with
            seconds := min 65535 (c.seconds + 1), paused := min 65535 (c.paused + 1), longest := max c.longest pause }
          t.cure.get d = { s.cure.get d with
            pause := pause, cls := .paused, causes := { invalid := invalid, latched := latched, hold := s.heatHold } } ∧
          (pause ≤ r.cure.limit → ended c') ∧
          (r.cure.limit < pause → t.entry d = { s.entry d with
            state := .held, shot := some { x with cure := some c', outcome := some .interrupted } } ∧
            Raised .held t ∧ Raised .daylight t))) ∧
        (paused = false → ∀ v1 v2 v3 v4 : Nat,
          d.bounding.map (fun z => (s.channel z).value) = ⟨.valid v1, .valid v2, .valid v3, .valid v4⟩ →
          (let tc := min (min v1 v2) (min v3 v4)
          let rate := if tc < r.cure.tmin then 0 else rateFactor tc r.cure.tref r.cure.step
          let extreme (e : Option (Nat × Nat)) (v : Nat) : Option (Nat × Nat) :=
            some (e.elim (v, v) (fun x => (min x.1 v, max x.2 v)))
          t.cure.get d = {
            pause := 0, cls := if tc < r.cure.tmin then .cold else .rated,
            causes := { invalid := [], latched := [], hold := false }, tc := some tc, rate := some rate } ∧
          ended { c with
            index := min 4294967295 (c.index + rate), seconds := min 65535 (c.seconds + 1)
            extremes := ⟨extreme c.extremes.a1 v1, extreme c.extremes.a2 v2, extreme c.extremes.a3 v3,
              extreme c.extremes.a4 v4⟩ })))) ∧
  (∀ (tc tref step : Nat) (k rem : Int), (tc : Int) - tref = k * step + rem → 0 ≤ rem → rem < step →
    (3 < k → rateFactor tc tref step = 4096) ∧ (k < -8 → rateFactor tc tref step = 0) ∧
    (0 ≤ k → k ≤ 3 → (rateFactor tc tref step : Int) = 256 * 2 ^ k.toNat + 256 * 2 ^ k.toNat * rem / step) ∧
    (-8 ≤ k → k < 0 →
      (rateFactor tc tref step : Int) = 256 / 2 ^ (-k).toNat + 256 / 2 ^ (-k).toNat * rem / step))

/-! ## Weighing -/

/-- A sample of the load cell (R99 to R103, R105): its weight joins the window of eight; a full window gives a filtered value,
the overload condition and the settle test over sixteen filtered values; a calibration in progress takes the raw sample; the
onset of the overload raises SCALE_OVERLOAD. With the builder IDLE nothing else changes. That a sample after a
calibration's 80th is not counted in it is DEDUCED (log 32). -/
def Obligations.SampleArrivalFiltersTheWeight : Prop :=
  ∀ (raw : Int) (saturated : Bool) (s : State),
    (let w := s.weigh
    let window := (w.window ++ [(Int.tdiv ((raw - w.zero) * w.span) 65536, saturated)]).drop (w.window.length - 7)
    ∃ t, exec (.sampleArrival raw saturated) s = .next t ∧ OnlyNotices s t ∧
      Frame [.weigh, .builder, .queue, .commit, .recipes, .ports] s t ∧
      (s.builder.state = .idle → Frame [.weigh, .ports] s t) ∧
      t.weigh.zero = w.zero ∧ t.weigh.span = w.span ∧ t.weigh.band = w.band ∧ t.weigh.raw = some (raw, saturated) ∧
      t.weigh.window = window ∧
      t.weigh.cal = w.cal.map (fun c =>
        if c.samples < 80 then
          { c with samples := c.samples + 1, sum := c.sum + raw, saturated := c.saturated || saturated } else c) ∧
      (window.length ≠ 8 → t.weigh.filtered = w.filtered ∧ t.weigh.settled = w.settled ∧
        t.weigh.lastSettled = w.lastSettled ∧ t.weigh.overload = window.any (·.2)) ∧
      (window.length = 8 →
        (let value := Int.tdiv (window.map (·.1)).sum 8
        t.weigh.filtered = (w.filtered ++ [value]).drop (w.filtered.length - 15) ∧
        t.weigh.overload = (window.any (·.2) || decide (60000 < value ∨ value < -60000)) ∧
        (t.weigh.settled = true ↔ t.weigh.filtered.length = 16 ∧ t.weigh.overload = false ∧
          ∀ x ∈ t.weigh.filtered, ∀ y ∈ t.weigh.filtered, x - y ≤ w.band) ∧
        t.weigh.lastSettled = if t.weigh.settled && !w.settled then some value else w.lastSettled)) ∧
      (t.weigh.overload = true → w.overload = false → Raised .scaleOverload t))

/-- A settle event with value v at the Charge Builder (R111, R112, R115 to R121): in IDLE it is ignored; in TARING it is the
tare; in COLLECTING and PREFIX_WAIT a change under the threshold is noted only, a rise that some live variant expects appends a
piece, any other rise starts recovery, and a fall is a true removal or starts recovery; in RECOVERY the reference reached again
within half the threshold ends it. A piece that completes a variant ends the charge, but under prefix hold it waits while a
longer variant is live. A charge that ends so can make the cell idle, and what waits for that is applied (R149, State.AppliedAtIdle).
That tare, pieces, live set and wrong count stay in IDLE after the charge (log 36), and that the expiry time
wraps or saturates as its clock does (log 27), are DEDUCED. -/
def Obligations.SettleEventsMoveTheBuilder : Prop :=
  ∀ (raw : Int) (saturated : Bool) (s t : State) (l : LayupFields) (v : Int),
    exec (.sampleArrival raw saturated) s = .next t → s.weigh.settled = false → t.weigh.settled = true →
    t.weigh.lastSettled = some v → s.layup = some l →
    (let b := s.builder
    let n := b.pieces.length
    let delta : Int := v - b.reference.getD 0
    let changing : Bool := decide (b.state = .collecting ∨ b.state = .prefixWait)
    let gap := some (l.gapLimit * 1000)
    let size (w : Variant) : Nat := (l.variants.ofVariant w).pieces.length
    let fits (w : Variant) : Bool := b.live.ofVariant w &&
      ((l.variants.ofVariant w).pieces[n]?).any (fun x => decide ((delta - x.nominal).natAbs ≤ x.tolerance))
    let wrong : Builder := { b with
      latest := some v, wrongCount := min 255 (b.wrongCount + 1),
      recovery := some { state := b.state, live := b.live, waiting := b.waiting }, gapTimer := none, state := .recovery,
      waiting := none, recoveryTimer := some (l.recoveryLimit * 1000) }
    let appended : Builder := { b with
      latest := some v, pieces := b.pieces ++ [{ weight := delta, liveBefore := b.live, matched := VariantSet.such fits }],
      live := VariantSet.such fits, reference := some v, gapTimer := gap }
    let complete (w : Variant) : Bool := fits w && decide (size w = n + 1)
    let longer : Bool := decide (∃ w ∈ Variant.all, fits w = true ∧ n + 1 < size w)
    (s.idleKept → s.AppliedAtIdle t) ∧
    (b.state = .idle → t.builder = b) ∧
    (b.state = .taring → t.builder = { b with
      tare := some v, reference := some v, latest := some v, tareTimer := none, state := .collecting, gapTimer := gap }) ∧
    (changing = true → delta.natAbs < l.threshold → t.builder = { b with latest := some v }) ∧
    (changing = true → (l.threshold : Int) ≤ delta →
      ((∀ w, fits w = false) → t.builder = wrong) ∧
      ((∃ w, fits w = true) → (∀ w, complete w = false) →
        t.builder = { appended with state := .collecting, waiting := none }) ∧
      (∀ w, complete w = true → (∀ x ∈ Variant.all, x.num < w.num → complete x = false) →
        (l.prefixHold = true ∧ longer = true → t.builder = { appended with state := .prefixWait, waiting := some w }) ∧
        (¬ (l.prefixHold = true ∧ longer = true) → ∀ c, b.charge = some c → Judged l appended c w s t))) ∧
    (changing = true → delta < 0 → delta ≤ -(l.threshold : Int) →
      (b.pieces = [] → t.builder = wrong) ∧
      (∀ older piece, b.pieces = older ++ [piece] →
        (let slack (w : Variant) : Nat := if piece.matched.ofVariant w = true then
          (((l.variants.ofVariant w).pieces[older.length]?).map (·.tolerance)).getD 0 else 0
        let waiting : Option Variant := if older = [] then none else
          Variant.all.find? (fun w => piece.liveBefore.ofVariant w && decide (size w = older.length))
        ((delta + piece.weight).natAbs ≤ max (slack .v1) (max (slack .v2) (slack .v3)) → t.builder = { b with
          latest := some v, pieces := older, live := piece.liveBefore, reference := some v, gapTimer := gap,
          waiting := waiting, state := if waiting.isSome then .prefixWait else .collecting }) ∧
        (max (slack .v1) (max (slack .v2) (slack .v3)) < (delta + piece.weight).natAbs → t.builder = wrong)))) ∧
    (b.state = .recovery → ∀ ret, b.recovery = some ret →
      (delta.natAbs ≤ l.threshold / 2 → t.builder = { b with
        latest := some v, state := ret.state, live := ret.live, waiting := ret.waiting, recoveryTimer := none,
        recovery := none, gapTimer := gap }) ∧
      (l.threshold / 2 < delta.natAbs → t.builder = { b with latest := some v })))

/-- Calibrations (R105 to R108): a request is refused with BUSY while the port's slot runs, a calibration is in progress or the
builder is not IDLE, and starts one otherwise; with its 80 samples taken, a saturated sample, or a span outside 1 to 65535, ends
it with CAL_RANGE and no change, and otherwise the new zero or span is in force, a change emptying window, history and rest. A
completion before the 80th sample, or of the other kind, has no effect (DEDUCED, log 32). A calibration's identity is the model's
own counter (log 37). -/
def Obligations.CalibrationsStartAndEnd : Prop :=
  (∀ (p : Port) (b0 b1 b2 b3 : Byte) (s : State), (s.port p).recv = .request → (s.port p).role = .supervisor →
    (let busy : Bool := (s.port p).slot.isRunning || s.weigh.cal.isSome || decide (s.builder.state ≠ .idle)
    let written : Nat := b0.toNat + 256 * b1.toNat + 65536 * b2.toNat + 16777216 * b3.toNat
    let wref : Nat := max 100 (min 60000 written)
    let started (kind : CalKind) : State := { s with
      weigh := { s.weigh with
        cal := some { kind := kind, port := p, op := s.nextOp, samples := 0, sum := 0, saturated := false } } }
    (busy = true → exec (.scaleZero p []) s = .next (s.answered p ⟨.busy, 0, []⟩) ∧
      exec (.scaleSpan p [b0, b1, b2, b3]) s = .next (s.answered p ⟨.busy, 0, []⟩)) ∧
    (busy = false → exec (.scaleZero p []) s = .next ((started .zeroing).began p .scaleZero) ∧
      exec (.scaleSpan p [b0, b1, b2, b3]) s =
        .next ((started (.spanning wref (decide (wref ≠ written)))).began p .scaleSpan)))) ∧
  (∀ (s : State) (c : Calibration), s.weigh.cal = some c → c.samples = 80 →
    (let average := Int.tdiv c.sum 80
    let d := average - s.weigh.zero
    let idle : Weigh := { s.weigh with cal := none }
    let emptied (w : Weigh) : Weigh := { w with window := [], filtered := [], settled := false, lastSettled := none }
    (c.kind = .zeroing → ∃ t, exec .scaleZeroDone s = .next t ∧ Frame [.weigh, .recipes, .ports] s t ∧
      (c.saturated = true →
        t.weigh = idle ∧ t.recipes = s.recipes ∧ Delivered c.port c.op .calRange (s32 average) s t) ∧
      (c.saturated = false → Delivered c.port c.op .ok (s32 average ++ s32 s.weigh.zero) s t ∧
        (average = s.weigh.zero → t.weigh = idle ∧ t.recipes = s.recipes) ∧
        (average ≠ s.weigh.zero → t.weigh = emptied { idle with zero := average } ∧
          t.recipes = { s.recipes with changed := true }))) ∧
    (∀ wref clamped, c.kind = .spanning wref clamped →
      (let span := wref * 65536 / d.toNat
      let bad : Bool := c.saturated || decide (d ≤ 0 ∨ span < 1 ∨ 65535 < span)
      ∃ t, exec .scaleSpanDone s = .next t ∧ Frame [.weigh, .recipes, .ports] s t ∧
        (bad = true → t.weigh = idle ∧ t.recipes = s.recipes ∧ Delivered c.port c.op .calRange
          (s32 d ++ optional 4 (if 0 < d then some (u32 span) else none)) s t) ∧
        (bad = false → Delivered c.port c.op (if clamped then .okClamped else .ok)
            (u16 span ++ u16 s.weigh.span ++ s32 d) s t ∧
          (span = s.weigh.span → t.weigh = idle ∧ t.recipes = s.recipes) ∧
          (span ≠ s.weigh.span → t.weigh = emptied { idle with span := span } ∧
            t.recipes = { s.recipes with changed := true })))))) ∧
  (∀ s : State,
    ((∀ c, s.weigh.cal = some c → c.kind = .zeroing → c.samples ≠ 80) → exec .scaleZeroDone s = .next s) ∧
    ((∀ c wref clamped, s.weigh.cal = some c → c.kind = .spanning wref clamped → c.samples ≠ 80) →
      exec .scaleSpanDone s = .next s))

/-! ## Charges -/

/-- A charge begin (R114, R115) by its checks in order, and the charge it starts: the next number, the active recipe and its
version, every enabled variant live, TARING with a tare timer of 3 s, or COLLECTING at once when the scale is already at rest. A
daylight outside 1 to 4 is refused with BAD_VALUE. -/
def Obligations.ChargeBeginStartsACharge : Prop :=
  (∀ (p : Port) (n : Byte) (s : State), Taken Summary.chargeBegin p [n] s → n.toNat = 0 ∨ 4 < n.toNat →
    exec (.chargeBegin p [n]) s = .next (s.answered p ⟨.badValue, 0, []⟩)) ∧
  ∀ (p : Port) (n : Byte) (d : Daylight) (s : State), Taken Summary.chargeBegin p [n] s → Daylight.ofNat? n.toNat = some d →
    (let b := s.builder
    (b.state ≠ .idle ∨ s.weigh.cal.isSome = true → exec (.chargeBegin p [n]) s = .next (s.answered p ⟨.busy, 0, []⟩)) ∧
    (b.state = .idle → s.weigh.cal = none →
      (s.lines.mode ≠ .run → exec (.chargeBegin p [n]) s = .next (s.answered p ⟨.mode, 0, []⟩)) ∧
      (s.lines.mode = .run →
        (s.activeRecipe = none → exec (.chargeBegin p [n]) s = .next (s.answered p ⟨.noRecipe, 0, []⟩)) ∧
        (∀ k r, s.recipes.active = some k → (s.recipes.slots.get k).record = some r →
          (4 ≤ s.queue.length → exec (.chargeBegin p [n]) s = .next (s.answered p ⟨.queueFull, 0, []⟩)) ∧
          (s.queue.length < 4 → (∃ e ∈ s.queue, e.record.daylight = d) →
            exec (.chargeBegin p [n]) s = .next (s.answered p ⟨.duplicate, 0, []⟩)) ∧
          (s.queue.length < 4 → (∀ e ∈ s.queue, e.record.daylight ≠ d) →
            (let variants := r.layup.variants
            let begun : Builder := { b with
              state := .taring, nextNumber := if 4294967295 ≤ b.nextNumber then 1 else b.nextNumber + 1,
              charge := some
                { number := b.nextNumber, daylight := d, slot := k, version := s.slotVersion k, start := s.stamp },
              tare := none, reference := none, latest := none, pieces := [],
              live := ⟨variants.a1.enabled, variants.a2.enabled, variants.a3.enabled⟩, waiting := none, recovery := none,
              wrongCount := 0, tareTimer := some 3000 }
            ((s.weigh.settled = false ∨ s.weigh.lastSettled = none) → exec (.chargeBegin p [n]) s =
              .next (({ s with builder := begun } : State).answered p ⟨.ok, 0, u32 b.nextNumber ++ u8 1⟩)) ∧
            (∀ v, s.weigh.settled = true → s.weigh.lastSettled = some v → exec (.chargeBegin p [n]) s =
              .next (({ s with builder := { begun with
                tare := some v, reference := some v, latest := some v, tareTimer := none, state := .collecting,
                gapTimer := some (r.layup.gapLimit * 1000) } } : State).answered p
                  ⟨.ok, 0, u32 b.nextNumber ++ u8 2⟩))))))))

/-- The ends of a charge in progress but those by a settle event (R115, R119 to R124): the tare timer in TARING rejects it with
UNSETTLED, the gap timer at 0 in COLLECTING with GAP, the recovery timer with WRONG_PIECE, a charge abort with ABORTED, an
overload onset with OVERLOAD, the press mode leaving RUN with MODE (R122); the gap timer at 0 in PREFIX_WAIT completes it with the
waiting variant. An expiry of the gap timer that a piece, a removal or a return from recovery forestalled finds the timer
restarted and has no effect (R119), nor has an expiry in another builder state: both by log 14 (the model's choice). An abort in
IDLE is refused with NOTHING. A charge rejected in PREFIX_WAIT, or in a recovery that returns there, is recorded with the waiting
variant, any other rejected here with none (R119, R124; DEDUCED, log 47). An end that makes the cell idle applies what waits for
that (R149, State.AppliedAtIdle). That tare, pieces, live set and wrong count stay in IDLE (log 36), and how the expiry
time wraps or saturates (log 27), are DEDUCED. -/
def Obligations.ChargesEndByTimersAbortAndOverload : Prop :=
  ∀ (s : State),
    (s.builder.state ≠ .taring → exec .tareTimerExpiry s = .next s) ∧
    (s.builder.state ≠ .recovery → exec .recoveryTimerExpiry s = .next s) ∧
    (s.builder.state ∉ [.collecting, .prefixWait] ∨ s.builder.gapTimer ≠ some 0 → exec .gapTimerExpiry s = .next s) ∧
    (s.builder.state = .idle → ∀ p, Taken Summary.chargeAbort p [] s →
      exec (.chargeAbort p []) s = .next (s.answered p ⟨.nothing, 0, []⟩)) ∧
    ∀ c, s.builder.charge = some c →
      (let changed := [Block.builder, .queue, .commit, .recipes, .ports]
      let rests (t : State) : Prop := Frame changed s t ∧ OnlyNotices s t ∧ s.AppliedAtIdle t
      let completed : Option Variant := match s.builder.state with
        | .prefixWait => s.builder.waiting
        | .recovery => s.builder.recovery.bind (·.waiting)
        | _ => none
      let rejected (reason : RejectReason) (t : State) : Prop := ChargeEnds (some reason) s.builder c completed none 0 s t
      (s.builder.state = .taring → ∃ t, exec .tareTimerExpiry s = .next t ∧ rests t ∧ rejected .unsettled t) ∧
      (s.builder.state = .recovery → ∃ t, exec .recoveryTimerExpiry s = .next t ∧ rests t ∧ rejected .wrongPiece t) ∧
      (s.builder.state = .collecting → s.builder.gapTimer = some 0 → ∃ t, exec .gapTimerExpiry s = .next t ∧ rests t ∧ rejected .gap t) ∧
      (∀ l w, s.builder.state = .prefixWait → s.layup = some l → s.builder.waiting = some w → s.builder.gapTimer = some 0 →
        ∃ t, exec .gapTimerExpiry s = .next t ∧ rests t ∧ Judged l s.builder c w s t) ∧
      (s.builder.state ≠ .idle → ∀ p, Taken Summary.chargeAbort p [] s → ∃ t, exec (.chargeAbort p []) s = .next t ∧
        Frame changed s t ∧ Answered p ⟨.ok, 0, u32 c.number⟩ s t ∧ s.AppliedAtIdle t ∧ rejected .aborted t) ∧
      (s.builder.state ≠ .idle → ∀ raw saturated t, exec (.sampleArrival raw saturated) s = .next t →
        s.weigh.overload = false → t.weigh.overload = true → rejected .overload t ∧ s.AppliedAtIdle t) ∧
      (s.builder.state ≠ .idle → s.lines.mode = .run → ∀ expired t, exec (.debouncedLevelChange expired) s = .next t →
        t.lines.mode ≠ .run → rejected .mode t ∧ (s.ejectorsKept → s.AppliedAtIdle t)))

/-- The charge queue expiry (R127) and the charge discard (R128, R10): every age rises by one, and the entries whose age has
reached their life leave with EXPIRED, but for one whose daylight holds a permit; their records are offered in queue order,
admitted while the depth is 7 or less and otherwise dropped and counted (R160). A discard takes the entry of its daylight out
with DISCARDED and withdraws a permit that stands on it. A removal that makes the cell idle applies what waits for that (R149,
State.AppliedAtIdle). A daylight outside 1 to 4 is refused with BAD_VALUE. -/
def Obligations.QueuedChargesExpireAndAreDiscarded : Prop :=
  (∀ s : State,
    (let aged := s.queue.map (fun e => { e with age := e.age + 1 })
    let due (e : QueueEntry) : Bool :=
      decide (e.life ≤ e.age) && decide ((s.entry e.record.daylight).state ≠ .loadPermitted)
    let records : List HistRecord := (aged.filter due).map (fun e =>
      .chargeReject { e.record with reason := some .expired, rejectTime := some s.stamp })
    let places : Nat := 8 - s.depth
    ∃ t, exec .chargeQueueExpiry s = .next t ∧ Frame [.queue, .commit, .recipes, .ports] s t ∧ OnlyNotices s t ∧
      t.queue = aged.filter (fun e => !due e) ∧ (aged.filter due = [] → t = { s with queue := aged }) ∧
      (aged.filter due ≠ [] → Raised .chargeExpired t ∧ s.AppliedAtIdle t) ∧
      t.commit.records = s.commit.records ++ records.take places ∧
      (records.length ≤ places → t.commit.dropped = s.commit.dropped) ∧
      (places < records.length → t.commit.dropped = min 65535 (s.commit.dropped + (records.length - places)) ∧
        Raised .dropped t))) ∧
  (∀ (p : Port) (n : Byte) (s : State), Taken Summary.chargeDiscard p [n] s → n.toNat = 0 ∨ 4 < n.toNat →
    exec (.chargeDiscard p [n]) s = .next (s.answered p ⟨.badValue, 0, []⟩)) ∧
  (∀ (p : Port) (n : Byte) (d : Daylight) (s : State), Taken Summary.chargeDiscard p [n] s →
    Daylight.ofNat? n.toNat = some d →
    (s.queued d = none → exec (.chargeDiscard p [n]) s = .next (s.answered p ⟨.noCharge, 0, []⟩)) ∧
    ∀ e, s.queued d = some e → ∃ t, exec (.chargeDiscard p [n]) s = .next t ∧
      Frame [.queue, .board, .commit, .recipes, .ports] s t ∧ Answered p ⟨.ok, 0, u32 e.record.number⟩ s t ∧
      t.queue = s.queue.filter (fun x => decide (x.record.daylight ≠ d)) ∧
      Offered (.chargeReject { e.record with reason := some .discarded, rejectTime := some s.stamp }) s t ∧
      OtherEntries d s t ∧ s.AppliedAtIdle t ∧
      ((s.entry d).state ≠ .loadPermitted → t.board = s.board) ∧
      ((s.entry d).state = .loadPermitted → t.entry d = { s.entry d with state := .vacant, permit := none } ∧
        Raised .permitLapsed t ∧ Raised .daylight t))

/-! ## The Daylight Board -/

/-- A load request (R5, R42) by its checks in order, and the permit it grants: LOAD_PERMITTED with the permit time running and
DAYLIGHT raised. A permit ends (R6, R9): its lapse and a load cancel of a LOAD_PERMITTED daylight stop the timer and make the
daylight EMPTY with DAYLIGHT raised, the lapse with PERMIT_LAPSED too; no other notice is raised, but RECIPE_APPLIED where
something is applied. A cancel in another state is refused with WRONG_STATE; a
lapse in another state has no effect (the model's choice, log 14). An end that makes the cell idle applies what waits for that
(R149, State.AppliedAtIdle). A daylight outside 1 to 4 is refused with BAD_VALUE (R22). The
two bytes of the permit time are DEDUCED (log 46). -/
def Obligations.LoadPermitsAreGrantedAndEnd : Prop :=
  (∀ (p : Port) (n : Byte) (s : State), n.toNat = 0 ∨ 4 < n.toNat →
      (Taken Summary.loadRequest p [n] s → exec (.loadRequest p [n]) s = .next (s.answered p ⟨.badValue, 0, []⟩)) ∧
      (Taken Summary.loadCancel p [n] s → exec (.loadCancel p [n]) s = .next (s.answered p ⟨.badValue, 0, []⟩))) ∧
  (∀ (p : Port) (n : Byte) (d : Daylight) (s : State), Taken Summary.loadRequest p [n] s → Daylight.ofNat? n.toNat = some d →
      (let refused (status : Status) (detail : Nat) : Prop :=
        exec (.loadRequest p [n]) s = .next (s.answered p ⟨status, detail, []⟩)
      ((s.entry d).state ≠ .vacant → refused .wrongState (s.entry d).state.code) ∧
      ((s.entry d).state = .vacant →
        (∀ u, (s.entry u).state = .unknown → (∀ e, (s.entry e).state = .unknown → u.num ≤ e.num) →
          refused .wrongState (16 + u.num)) ∧
        ((∀ u, (s.entry u).state ≠ .unknown) →
          ((∀ e ∈ s.queue, e.record.daylight ≠ d) → refused .noCharge 0) ∧
          ((∃ e ∈ s.queue, e.record.daylight = d) →
            (∀ z c, s.firstUnready d = some (z, c) → refused .notReady (z.num + 16 * c.code)) ∧
            ((∀ z ∈ d.bounding.toList, s.readiness z = .ready) →
              (s.level .mouldOpen = false → refused .mouldNotOpen 0) ∧
              (s.level .mouldOpen = true → s.lines.mode ≠ .run → refused .mode 0) ∧
              (s.level .mouldOpen = true → s.lines.mode = .run → 4294967295 ≤ s.board.nextShot → refused .shotLimit 0) ∧
              (s.level .mouldOpen = true → s.lines.mode = .run → s.board.nextShot < 4294967295 →
                ∃ t, exec (.loadRequest p [n]) s = .next t ∧ Frame [.board, .ports] s t ∧
                  Answered p ⟨.ok, 0, u16 s.board.permitTime⟩ s t ∧ Notified [.daylight] s t ∧ OtherEntries d s t ∧
                  t.entry d = { s.entry d with
                    state := .loadPermitted, permit := some (s.board.permitTime * 1000) }))))))) ∧
  (∀ (p : Port) (n : Byte) (d : Daylight) (s : State), Daylight.ofNat? n.toNat = some d →
      (let ended (t : State) : Prop := t.entry d = { s.entry d with state := .vacant, permit := none } ∧ OtherEntries d s t ∧
        Frame [.board, .recipes, .ports] s t ∧ s.AppliedAtIdle t
      let notified (kinds : List Notice) (t : State) : Prop :=
        (t.cellIdle = false ∨ s.nothingWaits → Notified kinds s t) ∧
          (t.cellIdle = true → ¬ s.nothingWaits → Notified (.recipeApplied :: kinds) s t)
      ((s.entry d).state = .loadPermitted →
        (∃ t, exec (.permitLapse d) s = .next t ∧ ended t ∧ OnlyNotices s t ∧ notified [.daylight, .permitLapsed] t) ∧
        (Taken Summary.loadCancel p [n] s → ∃ t, exec (.loadCancel p [n]) s = .next t ∧ ended t ∧
          Answered p ⟨.ok, 0, []⟩ s t ∧ notified [.daylight] t)) ∧
      ((s.entry d).state ≠ .loadPermitted → exec (.permitLapse d) s = .next s ∧
        (Taken Summary.loadCancel p [n] s → exec (.loadCancel p [n]) s = .next (s.answered p ⟨.wrongState, 0, []⟩)))))

/-- A load done (R7, R8, R126): of a LOAD_PERMITTED daylight, or late of an EMPTY one while no daylight is UNKNOWN, it takes the
charge out of the Charge Queue and opens a shot with the next shot number. A late one ends an ejector test of the daylight, with the
result ABORTED, the valve off and its slot or its wait given up (R142); a slot that this frees goes to the lowest-numbered cylinder that waits for it, whose sequence enters FORWARD and has its
attempt written into its shot (R135, R136; State.SlotsHandedOver, whose eject limit with no active recipe is log 25). Every other daylight entry is unchanged. With no charge, at the last shot number, or in another
state it is refused; a daylight outside 1 to 4 with BAD_VALUE (R22). -/
def Obligations.LoadDoneOpensAShot : Prop :=
  (∀ (p : Port) (n : Byte) (s : State), Taken Summary.loadDone p [n] s → n.toNat = 0 ∨ 4 < n.toNat →
    exec (.loadDone p [n]) s = .next (s.answered p ⟨.badValue, 0, []⟩)) ∧
  ∀ (p : Port) (n : Byte) (d : Daylight) (s : State), Taken Summary.loadDone p [n] s → Daylight.ofNat? n.toNat = some d →
    (let state := (s.entry d).state
    let known : Prop := ∀ u, (s.entry u).state ≠ .unknown
    let refused (status : Status) (detail : Nat) : Prop :=
      exec (.loadDone p [n]) s = .next (s.answered p ⟨status, detail, []⟩)
    (state ≠ .loadPermitted → state ≠ .vacant → refused .wrongState state.code) ∧
    (state = .vacant → ¬ known → refused .wrongState 0) ∧
    (state = .vacant → known → s.queued d = none → refused .noCharge 0) ∧
    ((state = .loadPermitted ∨ state = .vacant ∧ known ∧ (s.queued d).isSome = true) →
      4294967295 ≤ s.board.nextShot → refused .shotLimit 0) ∧
    (state = .loadPermitted → s.queued d = none → s.board.nextShot < 4294967295 → refused .noCharge 0) ∧
    (∀ e, state = .loadPermitted ∨ state = .vacant ∧ known → s.queued d = some e → s.board.nextShot < 4294967295 →
      ∃ t, exec (.loadDone p [n]) s = .next t ∧ Answered p ⟨.ok, 0, u32 s.board.nextShot⟩ s t ∧ Notified [.daylight] s t ∧
        t.entry d = { state := .loaded, permit := none, shot := some {
          number := s.board.nextShot, daylight := d, recipe := some (e.record.slot, e.record.version),
          heatRevision := s.recipes.heatRevision, charge := some e.record, load := some s.stamp, cureStart := none,
          cured := none, grant := none, takeout := none, cure := none, lateLoad := decide (state = .vacant),
          heatRevised := false, notHome := false, outcome := none, attempts := 0, strokeFailed := false, dropped := 0 } } ∧
        t.board.nextShot = s.board.nextShot + 1 ∧ t.board.permitTime = s.board.permitTime ∧
        t.queue = s.queue.filter (fun x => decide (x.record.daylight ≠ d)) ∧
        Frame [.board, .queue, .demould, .arbiter, .ports] s t ∧
        (state = .loadPermitted ∨ (s.ejector d).test = none →
          t.demould = s.demould ∧ t.arbiter = s.arbiter ∧ ∀ x, x ≠ d → t.entry x = s.entry x) ∧
        (state = .vacant → (t.ejector d).test = none) ∧
        (state = .vacant → (s.ejector d).test.isSome = true → t.holds d = false ∧ t.waits d = false ∧
          t.ejector d = { s.ejector d with test := none, lastTest := some .aborted, valve := false }) ∧
        (state = .vacant → (s.ejector d).test.isSome = true → s.linesKept → s.ejectorsKept → s.SlotsHandedOver
          (fun x => s.holds x && decide (x ≠ d)) (fun x => s.waits x && decide (x ≠ d)) t) ∧
        (s.linesKept → s.ejectorsKept → ∀ x, x ≠ d → t.entry x =
          if (s.ejector x).phase = .waitSlot ∧ (t.ejector x).phase ≠ .waitSlot then
            { s.entry x with shot := (s.entry x).shot.map (fun r => { r with
              attempts := (t.ejector x).attempt, strokeFailed := false }) }
          else s.entry x)))

/-- A cure start (R11, R4, R83) by its checks in order: every LOADED daylight becomes CURING with the target of the active
recipe, its cure fields zeroed and the Cure Integrator's state for it at its start. A force release (R13) makes every CURING
daylight HELD with outcome FORCED. With no such daylight both are refused with NOTHING. The list
of daylights in the answer, a count and then their numbers, is the model's choice (log 18). -/
def Obligations.CureStartAndForceRelease : Prop :=
  ∀ (p : Port) (s : State),
    (let loaded := s.daylightsIn [.loaded]
    let curing := s.daylightsIn [.curing]
    let numbers (ds : List Daylight) : List Byte := u8 ds.length ++ ds.map (fun d => BitVec.ofNat 8 d.num)
    let others (ds : List Daylight) (t : State) : Prop := (∀ d, d ∉ ds → t.entry d = s.entry d ∧ t.cure.get d = s.cure.get d) ∧
      t.board.nextShot = s.board.nextShot ∧ t.board.permitTime = s.board.permitTime
    (Taken Summary.cureStart p [] s →
      (let refused (status : Status) (detail : Nat) : Prop :=
        exec (.cureStart p []) s = .next (s.answered p ⟨status, detail, []⟩)
      let busy := s.daylightsIn [.unknown, .loadPermitted, .demoulding, .awaitTakeout, .awaitCommit]
      let away := Daylight.all.filter (fun d => (s.entry d).state != .vacant && !(s.level (.ejectHome d)))
      (∀ d, busy.head? = some d → refused .wrongState d.num) ∧
      (busy = [] → loaded = [] → refused .nothing 0) ∧
      (busy = [] → loaded ≠ [] → s.lines.mode ≠ .run → refused .mode 0) ∧
      (busy = [] → loaded ≠ [] → s.lines.mode = .run → s.level .mouldClosed = false → refused .mouldNotClosed 0) ∧
      (busy = [] → loaded ≠ [] → s.lines.mode = .run → s.level .mouldClosed = true →
        ∀ d, away.head? = some d → refused .notHome d.num) ∧
      (∀ r, busy = [] → loaded ≠ [] → s.lines.mode = .run → s.level .mouldClosed = true → away = [] →
        s.activeRecipe = some r →
        ∃ t, exec (.cureStart p []) s = .next t ∧ Frame [.board, .cure, .ports] s t ∧ others loaded t ∧
          Answered p ⟨.ok, 0, numbers loaded⟩ s t ∧ Raised .daylight t ∧
          ∀ d ∈ loaded, t.cure.get d = CureState.reset ∧ t.entry d = { s.entry d with
            state := .curing
            shot := (s.entry d).shot.map (fun x => { x with
              cureStart := some s.stamp
              cure := some {
                index := 0, target := r.cure.target, seconds := 0, paused := 0, longest := 0, trips := 0,
                extremes := .all none } }) }))) ∧
    (Taken Summary.forceRelease p [] s →
      (curing = [] → exec (.forceRelease p []) s = .next (s.answered p ⟨.nothing, 0, []⟩)) ∧
      (curing ≠ [] → ∃ t, exec (.forceRelease p []) s = .next t ∧ Frame [.board, .ports] s t ∧ others curing t ∧
        Answered p ⟨.ok, 0, numbers curing⟩ s t ∧ Raised .daylight t ∧ Raised .held t ∧
        ∀ d ∈ curing, t.entry d = { s.entry d with
          state := .held, shot := (s.entry d).shot.map (fun x => { x with outcome := some .forced }) })))

/-- A takeout done and a declaration (R15 to R19): a shot taken out is closed with the takeout time, and a SCRAP declaration
builds a closed record with the next shot number; the record is admitted to the Commit Queue at once exactly when a place is
free and its number is lower than that of every other shot on the board, and then the daylight is EMPTY; otherwise the daylight
is AWAIT_COMMIT with it, and COMMIT_BLOCKED is raised where a record then waits for queue space (R17; log 49 for one that ends and
begins again inside the command). All that the offer passes do is State.OffersMade. A declaration EMPTY makes an UNKNOWN daylight
EMPTY. A daylight that becomes EMPTY can make the cell idle (R149, State.AppliedAtIdle). The admission flag's place in the response is the
model's choice (log 18). That a closed shot in AWAIT_COMMIT counts as open is
DEDUCED from chapter 1 (log 23). A daylight outside 1 to 4 is refused with BAD_VALUE (R22). -/
def Obligations.ClosedShotsAreOfferedInOrder : Prop :=
  (∀ (p : Port) (n x : Byte) (s : State), n.toNat = 0 ∨ 4 < n.toNat →
    (Taken Summary.takeoutDone p [n] s → exec (.takeoutDone p [n]) s = .next (s.answered p ⟨.badValue, 0, []⟩)) ∧
    (Taken Summary.declare p [n, x] s → exec (.declare p [n, x]) s = .next (s.answered p ⟨.badValue, 0, []⟩))) ∧
  ∀ (p : Port) (n x : Byte) (d : Daylight) (s : State), Daylight.ofNat? n.toNat = some d →
    (let first (number : Nat) : Prop := s.depth < 12 ∧ ∀ e m, e ≠ d → s.shotNumber e = some m → number < m
    let closed (shot : Shot) (next : Nat) (t : State) : Prop :=
      Frame [.board, .commit, .recipes, .ports] s t ∧ t.board.permitTime = s.board.permitTime ∧ Raised .daylight t ∧
      State.OffersMade { s with board := { s.board with
        entries := s.board.entries.set d { s.entry d with state := .awaitCommit, shot := some shot }, nextShot := next } } t ∧
      BlockedReported s t ∧ s.AppliedAtIdle t ∧
      (∀ e, e ≠ d → (s.entry e).state ≠ .awaitCommit → t.entry e = s.entry e) ∧
      (first shot.number → t.entry d = { s.entry d with state := .vacant, shot := none } ∧
        ∃ rest, t.commit.records =
          s.commit.records ++ .shot { shot with dropped := s.commit.dropped } :: rest) ∧
      (s.depth = 12 ∨ (∃ e m, e ≠ d ∧ (s.entry e).state ≠ .awaitCommit ∧ s.shotNumber e = some m ∧ m ≤ shot.number) →
        t.entry d = { s.entry d with state := .awaitCommit, shot := some shot })
    (Taken Summary.takeoutDone p [n] s →
      ((s.entry d).state ≠ .awaitTakeout →
        exec (.takeoutDone p [n]) s = .next (s.answered p ⟨.wrongState, (s.entry d).state.code, []⟩)) ∧
      (∀ shot, (s.entry d).state = .awaitTakeout → (s.entry d).shot = some shot →
        ∃ t, exec (.takeoutDone p [n]) s = .next t ∧ closed { shot with takeout := some s.stamp } s.board.nextShot t ∧
          t.board.nextShot = s.board.nextShot ∧
          Answered p ⟨.ok, 0, flag (decide ((t.entry d).state = .vacant))⟩ s t)) ∧
    (Taken Summary.declare p [n, x] s →
      (let refused (status : Status) : Prop := exec (.declare p [n, x]) s = .next (s.answered p ⟨status, 0, []⟩)
      (1 < x.toNat → refused .badValue) ∧
      (x.toNat ≤ 1 → (s.entry d).state ≠ .unknown → refused .wrongState) ∧
      (x.toNat = 0 → (s.entry d).state = .unknown → ∃ t, exec (.declare p [n, x]) s = .next t ∧
        Frame [.board, .recipes, .ports] s t ∧ OtherEntries d s t ∧ t.entry d = { s.entry d with state := .vacant } ∧
        Answered p ⟨.ok, 0, []⟩ s t ∧ Raised .daylight t ∧ s.AppliedAtIdle t) ∧
      (x.toNat = 1 → (s.entry d).state = .unknown → 4294967295 ≤ s.board.nextShot → refused .shotLimit) ∧
      (x.toNat = 1 → (s.entry d).state = .unknown → s.board.nextShot < 4294967295 →
        ∃ t, exec (.declare p [n, x]) s = .next t ∧ Answered p ⟨.ok, 0, []⟩ s t ∧
          t.board.nextShot = s.board.nextShot + 1 ∧
          closed {
            number := s.board.nextShot, daylight := d,
            recipe := if s.activeRecipe.isSome then s.recipes.active.map (fun k => (k, s.slotVersion k)) else none,
            heatRevision := s.recipes.heatRevision, charge := none, load := none, cureStart := none, cured := none,
            grant := none, takeout := some s.stamp, cure := none, lateLoad := false, heatRevised := false,
            notHome := false, outcome := some .lostAtReset, attempts := 0, strokeFailed := false, dropped := 0 }
            (s.board.nextShot + 1) t))))

/-! ## Demoulding and ejectors -/

/-- A demould request (R132 to R134) by its checks in order, and the grant: every CURED and HELD daylight becomes DEMOULDING
with the grant time, outcome NORMAL for a CURED one and kept for a HELD one, no attempt made. With MOULD_OPEN deasserted the
sequences wait in WAIT_OPEN; with it asserted they start, the cylinders that wait taking free slots lowest first
(State.SlotsHandedOver): one served makes its first attempt, in FORWARD with the valve on, or in RETURN with it off where EJECT_FWD
is asserted, its timer at the eject limit and the stroke failed flag clear (R136), and the others wait in WAIT_SLOT. With no active
recipe the eject limit is 20 s (log 25). The
NOT_CURED detail as a mask of daylights is the model's choice (log 18). -/
def Obligations.DemouldGrantStartsSequences : Prop :=
  ∀ (p : Port) (s : State), Taken Summary.demouldRequest p [] s →
    (let refused (status : Status) (detail : Nat) : Prop :=
      exec (.demouldRequest p []) s = .next (s.answered p ⟨status, detail, []⟩)
    let mask (states : List DaylightState) : Nat :=
      ((Daylight.all.filter (fun d => decide ((s.entry d).state ∈ states))).map (fun d => 2 ^ (d.num - 1))).sum
    let barred := s.daylightsIn [.unknown, .loadPermitted]
    let granted (d : Daylight) : Bool := decide ((s.entry d).state = .cured ∨ (s.entry d).state = .held)
    (s.lines.mode = .stop → refused .mode 0) ∧
    (s.lines.mode ≠ .stop →
      (∀ d, barred.head? = some d → refused .wrongState d.num) ∧
      (barred = [] →
        (mask [.curing, .loaded] ≠ 0 → refused .notCured (mask [.curing, .loaded])) ∧
        (mask [.curing, .loaded] = 0 → mask [.cured, .held] = 0 → refused .nothing 0) ∧
        (mask [.curing, .loaded] = 0 → mask [.cured, .held] ≠ 0 → s.linesKept → s.ejectorsKept →
          ∃ t, exec (.demouldRequest p []) s = .next t ∧ Frame [.board, .demould, .arbiter, .ports] s t ∧
            Answered p ⟨.ok, 0, u8 (mask [.cured, .held])⟩ s t ∧ Notified [.daylight] s t ∧
            t.demould.grant = some {
              time := s.stamp, daylights := ⟨granted .d1, granted .d2, granted .d3, granted .d4⟩ } ∧
            t.board.nextShot = s.board.nextShot ∧ t.board.permitTime = s.board.permitTime ∧
            (∀ d, granted d = false → (s.entry d).state ≠ .demoulding → t.entry d = s.entry d) ∧
            (∀ d, granted d = true → t.entry d = { s.entry d with
              state := .demoulding
              shot := (s.entry d).shot.map (fun x => { x with
                grant := some s.stamp, attempts := (t.ejector d).attempt, strokeFailed := false
                outcome := if (s.entry d).state = .cured then some .normal else x.outcome }) }) ∧
            (s.level .mouldOpen = false → t.arbiter = s.arbiter ∧ ∀ d, t.ejector d =
              if granted d then { s.ejector d with phase := .waitOpen, attempt := 0, failed := false } else s.ejector d) ∧
            (s.level .mouldOpen = true → s.SlotsHandedOver s.holds
              (fun d => s.waits d || granted d || decide ((s.ejector d).phase = .waitOpen)) t) ∧
            (s.level .mouldOpen = true → ∀ d, granted d = true →
              t.ejector d = (if t.holds d then { s.ejector d with
                  phase := if s.level (.ejectFwd d) then .retract else .forward, attempt := 1, failed := false
                  timer := some (s.activeRecipe.elim 20 (·.eject) * 1000), valve := !(s.level (.ejectFwd d)) }
                else { s.ejector d with phase := .waitSlot, attempt := 0, failed := false }) ∧
              (t.ejector d).phase ∈ [.waitSlot, .forward, .retract] ∧
              ((t.ejector d).phase = .waitSlot → t.arbiter.count ≤ t.arbiter.held ∧
                ∀ e, granted e = true → d.num < e.num → (t.ejector e).phase = .waitSlot))))))

/-- An ejector test (R141) by its checks in order, and the test it starts with the eject limit of the active recipe, or 20
seconds with none; a free slot is taken at once. A slot count write (R140) clamps to 1 to 4; no slot is taken from a cylinder
that holds one, and afterwards no cylinder waits while a configured slot is free: the new slots go to the lowest-numbered
cylinders that wait, and the others wait on (R135, State.SlotsHandedOver). The write sets SETTINGS_CHANGED (R155), also where the
count is the one held (DEDUCED, log 15). The 20 s are the eject limit there too with no active recipe (log 25). A daylight outside
1 to 4 is refused with BAD_VALUE. -/
def Obligations.EjectorTestsAndSlotCount : Prop :=
  ∀ (p : Port) (n : Byte) (s : State),
    (Taken Summary.ejectorTest p [n] s → n.toNat = 0 ∨ 4 < n.toNat →
      exec (.ejectorTest p [n]) s = .next (s.answered p ⟨.badValue, 0, []⟩)) ∧
    (∀ d, Taken Summary.ejectorTest p [n] s → Daylight.ofNat? n.toNat = some d →
      (let refused (status : Status) (detail : Nat) : Prop :=
        exec (.ejectorTest p [n]) s = .next (s.answered p ⟨status, detail, []⟩)
      let limit : Nat := s.activeRecipe.elim 20 (·.eject)
      (s.lines.mode ≠ .setup → refused .mode 0) ∧
      (s.lines.mode = .setup → (s.entry d).state ≠ .vacant → refused .wrongState (s.entry d).state.code) ∧
      (s.lines.mode = .setup → (s.entry d).state = .vacant → s.level .mouldOpen = false → refused .mouldNotOpen 0) ∧
      (s.lines.mode = .setup → (s.entry d).state = .vacant → s.level .mouldOpen = true →
        ((s.ejector d).test.isSome = true → refused .busy 0) ∧
        ((s.ejector d).test = none → s.linesKept → s.ejectorsKept →
          ∃ t, exec (.ejectorTest p [n]) s = .next t ∧ Frame [.demould, .arbiter, .board, .ports] s t ∧
            Answered p ⟨.ok, 0, []⟩ s t ∧ (t.ejector d).lastTest = none ∧
            (∃ x, (t.ejector d).test = some x ∧ x.limit = limit) ∧
            s.SlotsHandedOver s.holds (fun e => s.waits e || decide (e = d)) t ∧
            (s.arbiter.waiting.members = [] → s.arbiter.held < s.arbiter.count → t.holds d = true ∧
              (∀ e, e ≠ d → t.ejector e = s.ejector e) ∧ t.board = s.board ∧
              t.ejector d = { s.ejector d with
                lastTest := none, valve := !(s.level (.ejectFwd d))
                test := some {
                  phase := if s.level (.ejectFwd d) then .retract else .forward, limit := limit,
                  timer := some (limit * 1000) } }) ∧
            (s.arbiter.count ≤ s.arbiter.held → t.waits d = true ∧ t.holds d = false ∧
              t.ejector d = { s.ejector d with
                lastTest := none, test := some { phase := .waitSlot, limit := limit, timer := none } }))))) ∧
    (Taken Summary.hydraulicSlotCountWrite p [n] s →
      (let count : Nat := max 1 (min 4 n.toNat)
      ∃ t, exec (.hydraulicSlotCountWrite p [n]) s = .next t ∧
        Frame [.demould, .arbiter, .board, .recipes, .ports] s t ∧ t.recipes = { s.recipes with changed := true } ∧
        Answered p ⟨if count = n.toNat then .ok else .okClamped, 0, u8 count ++ u8 t.arbiter.held⟩ s t ∧
        t.arbiter.count = count ∧
        (count ≤ s.arbiter.count → t.arbiter = { s.arbiter with count := count } ∧ t.demould = s.demould ∧
          t.board = s.board) ∧
        (s.arbiter.count < count → s.linesKept → s.ejectorsKept → s.SlotsHandedOver s.holds s.waits t) ∧
        (s.arbiter.count < count → t.arbiter.waiting.members ≠ [] → count ≤ t.arbiter.held)))

/-- The timers of the ejectors (R136 to R138, R141, R144): the stroke timer turns the valve off and enters RETURN with the
stroke failed, also in the shot (R130), STUCK after the second attempt; the return timer ends the sequence with NOT_HOME and
EJECTOR_FAULT, STUCK if the stroke had failed; a test's timer, run out, ends it with NO_FWD, or with NO_HOME and EJECTOR_FAULT. A
slot given back goes to the lowest-numbered cylinder that waits (R135, State.SlotsHandedOver). An expiry in another phase, or of a test's timer that stands at other than 0, has no effect (the model's
choice, log 14). A cylinder that is home when a failed stroke enters RETURN is seen at once, so that the second attempt begins or
the sequence ends (DEDUCED, log 24). With no active recipe, which no sequence meets, the limit is 20 s (log 25). -/
def Obligations.EjectorTimersEndStrokesReturnsAndTests : Prop :=
  ∀ (d : Daylight) (s : State), s.ejectorsKept →
    (let e := s.ejector d
    let limit : Nat := s.activeRecipe.elim 20 (·.eject)
    let changed := [Block.board, .demould, .arbiter, .ports]
    let shot (f : Shot → Shot) : Option Shot := (s.entry d).shot.map f
    let slots (t : State) : Prop :=
      s.linesKept → s.SlotsHandedOver (fun x => s.holds x && (decide (x ≠ d) || t.holds d)) s.waits t
    (e.phase ≠ .forward → exec (.strokeTimerExpiry d) s = .next s) ∧
    (e.phase = .forward → ∃ t, exec (.strokeTimerExpiry d) s = .next t ∧ Frame changed s t ∧ OnlyNotices s t ∧ slots t ∧
      (s.level (.ejectHome d) = false → t.holds d = true ∧
        t.ejector d = { e with phase := .retract, failed := true, timer := some (limit * 1000), valve := false } ∧
        t.entry d = { s.entry d with shot := shot (fun x => { x with
          strokeFailed := true, outcome := if e.attempt = 2 then some .stuck else x.outcome }) }) ∧
      (s.level (.ejectHome d) = true → s.level (.ejectFwd d) = false → e.attempt = 1 → t.holds d = true ∧
        t.ejector d = { e with
          phase := .forward, attempt := 2, failed := false, timer := some (limit * 1000), valve := true } ∧
        t.entry d = { s.entry d with shot := shot (fun x => { x with attempts := 2, strokeFailed := false }) }) ∧
      (s.level (.ejectHome d) = true → e.attempt = 2 → t.holds d = false ∧ Raised .daylight t ∧
        t.ejector d = { e with phase := .idle, failed := true, timer := none, valve := false } ∧
        t.entry d = { s.entry d with
          state := .awaitTakeout, shot := shot (fun x => { x with strokeFailed := true, outcome := some .stuck }) })) ∧
    (e.phase ≠ .retract → exec (.returnTimerExpiry d) s = .next s) ∧
    (e.phase = .retract → ∃ t, exec (.returnTimerExpiry d) s = .next t ∧ Frame changed s t ∧ OnlyNotices s t ∧ slots t ∧
      Raised .ejectorFault t ∧ Raised .daylight t ∧ t.holds d = false ∧
      t.ejector d = { e with phase := .idle, timer := none, valve := false } ∧
      t.entry d = { s.entry d with
        state := .awaitTakeout
        shot := shot (fun x => { x with notHome := true, outcome := if e.failed then some .stuck else x.outcome }) }) ∧
    ((e.test = none ∨ ∃ x, e.test = some x ∧ (x.phase = .waitSlot ∨ x.timer ≠ some 0)) →
      exec (.ejectorTestTimerExpiry d) s = .next s) ∧
    (∀ x, e.test = some x → x.phase ≠ .waitSlot → x.timer = some 0 → ∃ t, exec (.ejectorTestTimerExpiry d) s = .next t ∧
      Frame changed s t ∧ OnlyNotices s t ∧ slots t ∧ t.holds d = false ∧ t.entry d = s.entry d ∧
      (x.phase = .forward → t.ejector d = { e with test := none, lastTest := some .noFwd, valve := false }) ∧
      (x.phase = .retract → t.ejector d = { e with test := none, lastTest := some .noHome, valve := false } ∧
        Raised .ejectorFault t)))

/-! ## Recipes -/

/-- A recipe write (R146 to R148), activation (R151) and clear (R152). A write to a slot that is not active is stored, to the
active slot applied while the cell is idle and held as the pending copy otherwise; an activation is applied while the cell is
idle and is the pending selection otherwise; whatever is stored or applied sets SETTINGS_CHANGED and a record stored raises the
version by one. The 138 bytes of a record (R192): the structure they must have, the field that each place gives, each clamped to
its range (R146, R113), whether a clamp changed one, and the same bytes read back from a sound record that no clamp changed. That
a disabled variant's piece count above 8 counts as clamped, and that the bytes of pieces beyond the count read back as 0x00, is
the model's choice (log 34). -/
def Obligations.RecipesAreWrittenActivatedAndCleared : Prop :=
  (∀ (p : Port) (s : State), (s.port p).recv = .request → (s.port p).role = .supervisor →
    (let changed (r : RecipeStore) (t : State) : Prop := t.recipes = { r with changed := true } ∧ Frame [.recipes, .ports] s t
    (∀ (n a : Byte) (bytes : List Byte), bytes.length = 138 →
      (let c : Instr := .recipeWrite p (n :: a :: bytes)
      (8 ≤ n.toNat ∨ 2 ≤ a.toNat ∨ structureSound bytes = false → exec c s = .next (s.answered p ⟨.badValue, 0, []⟩)) ∧
      (∀ k, RecipeSlot.ofNat? n.toNat = some k → a.toNat ≤ 1 → structureSound bytes = true →
        (let record := (readRecipe bytes).clamp
        let status : Status := if recipeClamped bytes then .okClamped else .ok
        let stored : RecipeStore := { s.recipes with
          slots := s.recipes.slots.set k { record := some record, version := (s.slotVersion k + 1) % 65536 } }
        (s.recipes.active ≠ some k → exec c s =
          .next (({ s with recipes := { stored with changed := true } } : State).answered p ⟨status, 0, []⟩)) ∧
        (s.recipes.active = some k → s.cellIdle = true → ∃ t, exec c s = .next t ∧ changed stored t ∧
          Answered p ⟨status, 1, []⟩ s t ∧ Notified [.recipeApplied] s t) ∧
        (s.recipes.active = some k → s.cellIdle = false → exec c s =
          .next (({ s with recipes := { s.recipes with copy := some {
            record := record, apply := if a.toNat = 0 then .atIdle else .heatNow, heatApplied := false } } } :
              State).answered p ⟨status, 2, []⟩)))))) ∧
    (∀ n : Byte,
      (let c : Instr := .recipeActivate p [n]
      let chosen (choice : Option RecipeSlot) : Prop :=
        (s.cellIdle = true → ∃ t, exec c s = .next t ∧
          changed { s.recipes with active := choice, heatRevision := 0 } t ∧ Answered p ⟨.ok, 1, []⟩ s t ∧
          Notified [.recipeApplied] s t) ∧
        (s.cellIdle = false → exec c s =
          .next (({ s with recipes := { s.recipes with selection := some choice } } : State).answered p ⟨.ok, 2, []⟩))
      (n = 255#8 → chosen none) ∧ (8 ≤ n.toNat → n ≠ 255#8 → exec c s = .next (s.answered p ⟨.badValue, 0, []⟩)) ∧
      (∀ k, RecipeSlot.ofNat? n.toNat = some k →
        ((s.recipes.slots.get k).record = none → exec c s = .next (s.answered p ⟨.noRecipe, 0, []⟩)) ∧
        ((s.recipes.slots.get k).record ≠ none → chosen (some k))))) ∧
    (∀ n : Byte,
      (let c : Instr := .recipeClear p [n]
      (8 ≤ n.toNat → exec c s = .next (s.answered p ⟨.badValue, 0, []⟩)) ∧
      (∀ k, RecipeSlot.ofNat? n.toNat = some k →
        (let inUse : Prop := s.recipes.active = some k ∨ s.recipes.selection = some (some k)
        (inUse → exec c s = .next (s.answered p ⟨.wrongState, 0, []⟩)) ∧
        (¬ inUse → (s.recipes.slots.get k).record = none → exec c s = .next (s.answered p ⟨.nothing, 0, []⟩)) ∧
        (¬ inUse → (s.recipes.slots.get k).record ≠ none → exec c s =
          .next (({ s with recipes := { s.recipes with
            slots := s.recipes.slots.set k { record := none, version := s.slotVersion k }, changed := true } } :
              State).answered p ⟨.ok, 0, []⟩)))))))) ∧
  (∀ bytes : List Byte, bytes.length = 138 →
    (let b (o : Nat) : Nat := ((bytes[o]?).getD 0#8).toNat
    let w (o : Nat) : Nat := b o + 256 * b (o + 1)
    let d (o : Nat) : Nat := w o + 65536 * w (o + 2)
    let signed (o : Nat) : Int := if b o < 128 then b o else (b o : Int) - 256
    let base (v : Variant) : Nat := match v with | .v1 => 46 | .v2 => 71 | .v3 => 96
    let enabled (v : Variant) : Bool := (b 45).testBit (v.num - 1)
    let variant (v : Variant) : VariantSpec := {
      enabled := enabled v
      pieces := (List.range (min 8 (b (base v)))).map (fun i => {
        nominal := max 10 (min 30000 (w (base v + 1 + 3 * i))), tolerance := max 1 (b (base v + 3 + 3 * i)) }) }
    let tref : Nat := max 1000 (min 2500 (w 32))
    (structureSound bytes = true ↔ (∀ o, o < 8 → 0x20 ≤ b o ∧ b o ≤ 0x7E) ∧ 1 ≤ b 45 ∧ b 45 ≤ 7 ∧
      (∀ v, enabled v = true → 1 ≤ b (base v) ∧ b (base v) ≤ 8) ∧ d 123 ≤ d 127 ∧ b 137 ≤ 1) ∧
    (readRecipe bytes).clamp = {
      name := bytes.take 8
      heat := {
        platen := ⟨min 3000 (w 8), min 3000 (w 10), min 3000 (w 12), min 3000 (w 14), min 3000 (w 16)⟩
        bias := Ten.tabulate (fun z => max (-100) (min 100 (signed (18 + z.num))))
        readyBand := min 200 (w 28), overBand := max 50 (min 500 (w 30)) }
      cure := {
        tref := tref, step := max 20 (min 400 (w 34)), tmin := min tref (w 36), target := max 1 (w 38), dwell := w 40
        limit := min 600 (w 42) }
      eject := max 1 (min 20 (b 44))
      layup := {
        variants := ⟨variant .v1, variant .v2, variant .v3⟩, threshold := max 10 (min 5000 (w 121))
        bandMin := max 10 (min 240000 (d 123)), bandMax := max 10 (min 240000 (d 127)), driftLimit := min 1000 (w 131)
        gapLimit := max 1 (min 60 (b 133)), recoveryLimit := max 5 (min 120 (b 134)), life := max 60 (min 7200 (w 135))
        prefixHold := decide (b 137 = 1) } } ∧
    (recipeClamped bytes = false ↔
      (∀ o ∈ [8, 10, 12, 14, 16], w o ≤ 3000) ∧ (∀ o, 18 ≤ o → o < 28 → -100 ≤ signed o ∧ signed o ≤ 100) ∧
      w 28 ≤ 200 ∧ 50 ≤ w 30 ∧ w 30 ≤ 500 ∧ 1000 ≤ w 32 ∧ w 32 ≤ 2500 ∧ 20 ≤ w 34 ∧ w 34 ≤ 400 ∧ w 36 ≤ w 32 ∧
      1 ≤ w 38 ∧ w 42 ≤ 600 ∧ 1 ≤ b 44 ∧ b 44 ≤ 20 ∧
      (∀ v, b (base v) ≤ 8 ∧ ∀ i, i < b (base v) →
        10 ≤ w (base v + 1 + 3 * i) ∧ w (base v + 1 + 3 * i) ≤ 30000 ∧ 1 ≤ b (base v + 3 + 3 * i)) ∧
      10 ≤ w 121 ∧ w 121 ≤ 5000 ∧ 10 ≤ d 123 ∧ d 123 ≤ 240000 ∧ 10 ≤ d 127 ∧ d 127 ≤ 240000 ∧ w 131 ≤ 1000 ∧
      1 ≤ b 133 ∧ b 133 ≤ 60 ∧ 5 ≤ b 134 ∧ b 134 ≤ 120 ∧ 60 ≤ w 135 ∧ w 135 ≤ 7200) ∧
    (structureSound bytes = true → recipeClamped bytes = false →
      (∀ v o, base v + 1 + 3 * b (base v) ≤ o → o < base v + 25 → b o = 0) →
      (readRecipe bytes).clamp.bytes = bytes)))

/-! ## The Memory Link and the history memory -/

/-- The choice of an idle Memory Link (R161, R166): a history format, then a settings save, then a flush or a port read by the
urgency of the queue: at depth 3 or less the read first, at 4 to 7 the two in turn, at 8 or more the flush; ports in turn after
the one served last. What each grant begins is R157, R167, R168, R171. A link that serves an operation makes no choice. That
the arbiter remembers its last choice at every urgency level (log 39), and that SETTINGS_CHANGED is cleared by a format only where
it takes a snapshot (log 43), are DEDUCED; that a cursor a format makes invalid keeps its value is the model's choice (log 7). -/
def Obligations.LinkArbitrationServesByPriority : Prop :=
  ∀ s : State,
    (let next (p : Port) : Port := match p with | .p1 => .p2 | .p2 => .p3 | .p3 => .p1
    let waiting (p : Port) : Bool := decide ((s.port p).read = .waiting)
    let a := next s.link.lastPort
    let reader : Option Port :=
      if waiting a then some a else if waiting (next a) then some (next a)
      else if waiting s.link.lastPort then some s.link.lastPort else none
    let flush : Bool := decide (s.history.memory = .ready ∧ s.commit.records ≠ [])
    let readFirst : Bool := decide (s.depth ≤ 3 ∨ s.depth ≤ 7 ∧ s.link.lastRead = false)
    let h := s.history
    (s.link.op ≠ none → exec .linkArbitration s = .next s) ∧
    (s.link.op = none →
      (∀ f, h.format = some f → exec .linkArbitration s = .next (
        let stored := s.flash.settings
        let image : SettingsImage := match stored with
          | .image i => { i with ringSize := some f.size, shotBase := s.board.nextShot, seqBase := f.first }
          | _ => { s.snapshot with ringSize := some f.size, shotBase := s.board.nextShot, seqBase := f.first }
        let kept : Bool := match stored with
          | .image _ => true
          | _ => false
        { s with
          link := { s.link with op := some (.format (.settingsErase image)), left := some 800 }
          history := { h with format := some { f with granted := true, built := !kept } }
          recipes := { s.recipes with changed := s.recipes.changed && kept }
          ports := s.ports.map (fun q => { q with
            cursorValid := false, read := if q.read = .idle then .idle else .fetched .formatted }) })) ∧
      (∀ r, h.format = none → s.recipes.save = some r → exec .linkArbitration s = .next { s with
        link := { s.link with op := some (.settingsErase s.snapshot), left := some 800 }
        recipes := { s.recipes with changed := false, save := some { r with granted := true } } }) ∧
      (h.format = none → s.recipes.save = none →
        (flush = false → reader = none → exec .linkArbitration s = .next s) ∧
        (∀ p, reader = some p → flush = false ∨ readFirst = true → exec .linkArbitration s = .next { s with
          link := { op := some (.portRead p false), left := none, lastPort := p, lastRead := true } }) ∧
        (flush = true → reader = none ∨ readFirst = false →
          (h.writeSlot < 512 → exec .linkArbitration s = .next { s with
            link := { s.link with op := some .flushProgram, left := some 5, lastRead := false } }) ∧
          (512 ≤ h.writeSlot → h.head + 1 ≤ 8405023 → exec .linkArbitration s = .next { s with
            link := { s.link with op := some (.sectorErase (h.head + 1)), left := some 800, lastRead := false }
            history := { h with oldest :=
              if h.head - h.oldest + 1 = h.ringSize.getD 0 then h.oldest + 1 else h.oldest } }) ∧
          (512 ≤ h.writeSlot → 8405023 < h.head + 1 → ∃ t, exec .linkArbitration s = .next t ∧
            Frame [.link, .history, .ports] s t ∧ OnlyNotices s t ∧ t.link = { s.link with lastRead := false } ∧
            t.history = { h with memory := .fault, cause := some .sequenceLimit } ∧ Raised .historyFault t)))))

/-- The flash steps of a flush that succeed (R167, R168, R191): the record of the queue head is in the write slot byte for byte
and leaves the queue, the write slot rises, and the offer passes follow (R16, State.OffersMade), with the onset of COMMIT_BLOCKED
(R17, log 49) and what waits for the cell to be idle (R149); the erased sector reads 0xFF, and its header makes it the
head with write slot 1. Every other byte of the flash reads as before. The 128 bytes of a header and of each kind of record are
written out field by field in the order of their places (R191), an absent group's bytes and those not named 0x00, with the CRC-16
of R162 over the first 126. An event that does not match the operation in progress,
each of the three taken by itself, has no effect: the model's choice (log 33). -/
def Obligations.FlushStepsWriteRecordsAndSectors : Prop :=
  (∀ s : State,
    (let h := s.history
    let sector (seq : Nat) : Nat := seq % h.ringSize.getD 0 + 1
    let holds (base : Nat) (bytes : List Byte) (t : State) : Prop :=
      t.flash.settings = s.flash.settings ∧
      (∀ i (hi : i < bytes.length), readByte t.flash.cells (base + i) = bytes[i]) ∧
      ∀ a, a < base ∨ base + bytes.length ≤ a → readByte t.flash.cells a = readByte s.flash.cells a
    (∀ r rest, s.link.op = some .flushProgram → s.commit.records = r :: rest → ∃ t, exec (.flushProgramDone true) s = .next t ∧
      Frame [.flash, .history, .link, .commit, .board, .recipes, .ports] s t ∧ OnlyNotices s t ∧
      (r.bytes h.nextIndex).length = 128 ∧ holds (sector h.head * 65536 + h.writeSlot * 128) (r.bytes h.nextIndex) t ∧
      t.history = { h with writeSlot := h.writeSlot + 1 } ∧ t.link = { s.link with op := none, left := none } ∧
      State.OffersMade { s with commit := { s.commit with records := rest } } t ∧ BlockedReported s t ∧ s.AppliedAtIdle t ∧
      (s.offerTarget = none → t.commit = { s.commit with records := rest } ∧ t.board = s.board)) ∧
    (∀ seq, s.link.op = some (.sectorErase seq) → ∃ t, exec .sectorEraseDone s = .next t ∧ Frame [.flash, .link] s t ∧
      holds (sector seq * 65536) (List.replicate 65536 0xFF#8) t ∧
      t.link = { s.link with op := some (.sectorHeader seq), left := some 5 }) ∧
    (∀ seq, s.link.op = some (.sectorHeader seq) → ∃ t, exec (.sectorHeaderDone true) s = .next t ∧
      Frame [.flash, .history, .link] s t ∧ holds (sector seq * 65536) (headerBytes (h.ringSize.getD 0) seq h.firstSeq) t ∧
      (headerBytes (h.ringSize.getD 0) seq h.firstSeq).length = 128 ∧
      t.history = { h with head := seq, writeSlot := 1 } ∧ t.link = { s.link with op := none, left := none }) ∧
    (s.link.op ≠ some .flushProgram → ∀ equal, exec (.flushProgramDone equal) s = .next s) ∧
    ((∀ seq, s.link.op ≠ some (.sectorErase seq)) → exec .sectorEraseDone s = .next s) ∧
    ((∀ seq, s.link.op ≠ some (.sectorHeader seq)) → ∀ equal, exec (.sectorHeaderDone equal) s = .next s))) ∧
  (let one (n : Nat) : List Byte := [BitVec.ofNat 8 n]
  let two (n : Nat) : List Byte := one n ++ one (n / 256)
  let four (n : Nat) : List Byte := two n ++ two (n / 65536)
  let signed2 (i : Int) : List Byte := two (i % 65536).toNat
  let signed4 (i : Int) : List Byte := four (i % 4294967296).toNat
  let blank (n : Nat) : List Byte := List.replicate n 0#8
  let held (width : Nat) (x : Option (List Byte)) : List Byte := x.getD (blank width)
  let fields (xs : List (List Byte)) : List Byte := xs.flatten
  let bits (xs : List Bool) : Nat := xs.foldr (fun x n => (if x then 1 else 0) + 2 * n) 0
  let step (c : BitVec 16) : BitVec 16 := if c.msb then (c <<< 1) ^^^ 0x1021#16 else c <<< 1
  let crc (bytes : List Byte) : Nat := (bytes.foldl (fun (c : BitVec 16) b =>
    step (step (step (step (step (step (step (step (c ^^^ BitVec.shiftLeft (b.setWidth 16) 8))))))))) 0xFFFF#16).toNat
  let slot (xs : List (List Byte)) : List Byte := fields xs ++ two (crc (fields xs))
  let time (x : Option Stamp) : List Byte := held 4 (x.map (fun x => four x.value))
  let known (x : Option Stamp) : Bool := x.any (·.set)
  let pieces (c : ChargeRecord) : List Byte := (List.range 8).flatMap (fun i => signed2 (c.pieces.getD i 0))
  let totals (c : ChargeRecord) : List Byte := fields [signed4 c.total, held 4 (c.tare.map signed4), held 4 (c.drift.map signed4)]
  let variant (c : ChargeRecord) : List Byte := held 1 (c.variant.map (fun v => one v.num))
  (∀ ring seq first, headerBytes ring seq first = slot [one 0x10, one ring, blank 2, four seq, four first, blank 114]) ∧
  ∀ index,
    (∀ r : Shot, (HistRecord.shot r).bytes index =
      (let extremes : List (Option (Nat × Nat)) := match r.cure with
        | some c => [c.extremes.a1, c.extremes.a2, c.extremes.a3, c.extremes.a4]
        | none => [none, none, none, none]
      let outcome (o : DemouldOutcome) : Nat := match o with
        | .normal => 0 | .forced => 1 | .interrupted => 2 | .opened => 3 | .stuck => 4 | .ejectAborted => 5 | .lostAtReset => 6
      slot [one 0x01, one r.daylight.num,
        two (bits ([r.recipe.isSome, r.charge.isSome, r.load.isSome, r.cureStart.isSome, r.cured.isSome, r.grant.isSome,
          r.cure.isSome] ++ extremes.map (·.isSome) ++ [r.outcome.isSome])),
        four index, four r.number, held 3 (r.recipe.map (fun x => one x.1.num ++ two x.2)), two r.heatRevision,
        held 1 (r.outcome.map (fun o => one (outcome o))), one r.attempts, one (bits [r.lateLoad, r.heatRevised, r.notHome]),
        two r.dropped,
        one (bits [known r.load, known r.cureStart, known r.cured, known r.grant, known r.takeout,
          known (r.charge.map (·.start)), known (r.charge.bind (·.accept)), known (r.charge.bind (·.expiry))]),
        held 1 (r.cure.map (fun c => one c.trips)), time r.load, time r.cureStart, time r.cured, time r.grant, time r.takeout,
        held 12 (r.cure.map (fun c =>
          fields [four c.index, two c.target, two c.seconds, two c.paused, two c.longest])),
        extremes.flatMap (fun x => held 4 (x.map (fun x => two x.1 ++ two x.2))),
        held 48 (r.charge.map (fun c => fields [four c.number, variant c, one c.pieces.length, one c.wrongCount, blank 1,
          pieces c, totals c, four c.start.value, time c.accept, time c.expiry])),
        blank 6])) ∧
    (∀ c : ChargeRecord, (HistRecord.chargeReject c).bytes index =
      (let reason (r : RejectReason) : Nat := match r with
        | .unsettled => 0 | .wrongPiece => 1 | .gap => 2 | .total => 3 | .drift => 4 | .aborted => 5 | .overload => 6
        | .mode => 7 | .expired => 8 | .discarded => 9
      slot [one 0x02, one c.daylight.num, two (bits [c.variant.isSome, c.tare.isSome, c.drift.isSome, c.accept.isSome]),
        four index, four c.number, one c.slot.num, two c.version, variant c, held 1 (c.reason.map (fun r => one (reason r))),
        one c.pieces.length, one c.wrongCount, one (bits [c.start.set, known c.accept, known c.expiry, known c.rejectTime]),
        pieces c, totals c, four c.start.value, time c.accept, time c.expiry, time c.rejectTime, blank 62])) ∧
    ∀ h : HeatTrip, (HistRecord.heatTrip h).bytes index =
      (let value : Option Nat := match h.value with | .valid x => some x | .invalid _ => none
      let cause : Nat := if h.value = .invalid .overrange then 1 else 0
      let source : Nat := match h.source with | .openCircuit => 0 | .over => 1 | .limit => 2
      let state (x : DaylightState) : Nat := match x with
        | .unknown => 0 | .vacant => 1 | .loadPermitted => 2 | .loaded => 3 | .curing => 4 | .cured => 5 | .held => 6
        | .demoulding => 7 | .awaitTakeout => 8 | .awaitCommit => 9
      let place (x : Option TripDaylight) : List Byte := held 2 (x.map (fun d => one d.daylight.num ++ one (state d.state)))
      let shot (x : Option TripDaylight) : Option Nat := x.bind (·.shot)
      slot [one 0x03, one h.zone.num,
        two (bits [value.isSome, h.setpoint.isSome, h.overBand.isSome, h.below.isSome, h.above.isSome,
          (shot h.below).isSome, (shot h.above).isSome]),
        four index, one source, one cause, held 2 (value.map two), held 2 (h.setpoint.map two), held 2 (h.overBand.map two),
        four h.time.value, one (if h.time.set then 1 else 0), place h.below, place h.above, blank 3,
        held 4 ((shot h.below).map four), held 4 ((shot h.above).map four), blank 90]))

/-- Settings saves and history formats (R157, R170 to R172): the checks of the two requests and their acceptance; the steps of a
save, which ends with sector 0 holding the snapshot and the result OK; and the steps of a format, which stores the ring size and
the bases, erases every ring sector and makes the ring of the first header the one in use, with its result. A ring size
or base that a format changes sets SETTINGS_CHANGED (R155), but not where its image is the snapshot that cleared it (DEDUCED,
log 43). A program of sector 0 runs without a limit of its own, since its steps are not told apart (the model's choice, log 11). An
operation's identity is the model's own counter (log 37). An erase step of a format has no comparison and ignores the operand
`equal` (the model's choice, log 41). That the format's result gives the ring size in two bytes is DEDUCED
(log 46). -/
def Obligations.SavesAndFormatsRunTheirSteps : Prop :=
  (∀ (p : Port) (a b : Byte) (s : State), (s.port p).recv = .request → (s.port p).role = .supervisor →
    (let h := s.history
    let written : Nat := a.toNat + 256 * b.toNat
    let size : Nat := min (max 2 (min 255 written)) (h.sectors - 1)
    let first : Nat := max h.seqBase (if h.ringHeld then h.head + 1 else 0)
    let refused (c : Instr) (status : Status) : Prop := exec c s = .next (s.answered p ⟨status, 0, []⟩)
    let save : Instr := .settingsSave p []
    let format : Instr := .historyFormat p [a, b]
    let running : Prop := (s.port p).slot.isRunning = true
    (running ∨ s.recipes.save ≠ none → refused save .busy) ∧
    (¬ running → s.recipes.save = none →
      (h.memory = .absent → refused save .noMemory) ∧ (h.memory = .fault → refused save .wrongState) ∧
      (h.memory ≠ .absent → h.memory ≠ .fault → exec save s = .next (({ s with
        recipes := { s.recipes with save := some { port := p, op := s.nextOp, granted := false } } } : State).began p
          .settingsSave))) ∧
    (running → refused format .busy) ∧
    (¬ running → h.memory = .absent → refused format .noMemory) ∧
    (¬ running → h.memory = .formatting → refused format .busy) ∧
    (¬ running → h.memory ∉ [.absent, .formatting] →
      (8405023 < first → refused format .sequenceLimit) ∧
      (first ≤ 8405023 → exec format s = .next (({ s with history := { h with
        memory := .formatting, cause := none, format := some {
          port := p, op := s.nextOp, size := size, clamped := decide (size ≠ written), first := first,
          granted := false, built := false } } } : State).began p .historyFormat))))) ∧
  (∀ (s : State) (i : SettingsImage),
    (let sector0 (x : SettingsSector) : Flash := { s.flash with settings := x }
    let idle : Link := { s.link with op := none, left := none }
    (s.link.op = some (.settingsErase i) → exec .settingsEraseDone s = .next { s with
      flash := sector0 .blank, link := { s.link with op := some (.settingsProgram i), left := none } }) ∧
    (∀ r, s.link.op = some (.settingsProgram i) → s.recipes.save = some r →
      ∃ t, exec (.settingsSaveDone true) s = .next t ∧ Frame [.flash, .link, .recipes, .ports] s t ∧
        t.flash = sector0 (.image i) ∧ t.link = idle ∧ t.recipes = { s.recipes with save := none, lastSave := some .ok } ∧
        Delivered r.port r.op .ok (flag s.recipes.changed) s t) ∧
    (∀ f, s.history.format = some f →
      (let h := s.history
      let step (x : FormatStep) (left : Option Nat) : Link := { s.link with op := some (.format x), left := left }
      let rest (base count : Nat) (t : State) : Prop := t.flash.settings = s.flash.settings ∧
        ∀ a, a < base ∨ base + count ≤ a → readByte t.flash.cells a = readByte s.flash.cells a
      (s.link.op = some (.format (.settingsErase i)) → ∀ equal, exec (.formatStepDone equal) s = .next { s with
        flash := sector0 .blank, link := step (.settingsProgram i) none }) ∧
      (s.link.op = some (.format (.settingsProgram i)) → exec (.formatStepDone true) s = .next { s with
        flash := sector0 (.image i), link := step (.ringErase 1) (some 800)
        history := { h with storedRing := i.ringSize, shotBase := i.shotBase, seqBase := i.seqBase }
        recipes := { s.recipes with changed := s.recipes.changed || (!f.built &&
          decide (i.ringSize ≠ h.storedRing ∨ i.shotBase ≠ h.shotBase ∨ i.seqBase ≠ h.seqBase)) } }) ∧
      (∀ k equal, s.link.op = some (.format (.ringErase k)) → ∃ t, exec (.formatStepDone equal) s = .next t ∧
        Frame [.flash, .link] s t ∧ rest (k * 65536) 65536 t ∧
        (∀ j < 65536, readByte t.flash.cells (k * 65536 + j) = 0xFF#8) ∧
        t.link = if k < f.size then step (.ringErase (k + 1)) (some 800) else step .header (some 5)) ∧
      (s.link.op = some (.format .header) → ∃ t, exec (.formatStepDone true) s = .next t ∧
        Frame [.flash, .link, .history, .ports] s t ∧ rest ((f.first % f.size + 1) * 65536) 128 t ∧
        (∀ j (hj : j < (headerBytes f.size f.first f.first).length),
          readByte t.flash.cells ((f.first % f.size + 1) * 65536 + j) = (headerBytes f.size f.first f.first)[j]) ∧
        t.link = idle ∧ t.history = { h with
          memory := .ready, cause := none, ringSize := some f.size, ringHeld := true, firstSeq := f.first,
          oldest := f.first, head := f.first, writeSlot := 1, torn := 0, format := none } ∧
        Delivered f.port f.op (if f.clamped then .okClamped else .ok)
          (u16 f.size ++ u32 f.first ++ u32 h.shotBase) s t)))))

/-- A flash step that fails (R157, R169): past its limit, or with a comparison that is not equal, it leaves the link idle. A
flush makes the memory FAULT, but leaves it FORMATTING when a format has been accepted meanwhile; a settings save ends with
MEMORY_FAULT besides, as does one that waits for the link, and sector 0 holds no valid image; a format makes the memory FAULT
and ends with MEMORY_FAULT and the cause. The result of each is delivered to its port's slot with OP_DONE (R183). No queued record
is lost, the ring descriptor keeps its values, and no byte of the flash changes outside the slot or the sector of the step. That a failed step leaves sector 0 a partial image is the model's reading of "a blank or partial image" (log 8), and that
a timeout in a port read, which has no limit, has no effect is the model's choice (log 33). -/
def Obligations.FailedFlashStepsFaultTheMemory : Prop :=
  ∀ (s : State) (op : LinkOp), s.link.op = some op →
    (let flush : Bool := match op with
      | .flushProgram => true | .sectorErase _ => true | .sectorHeader _ => true | _ => false
    let saving : Bool := match op with
      | .settingsErase _ => true | .settingsProgram _ => true | _ => false
    let formatting : Bool := match op with
      | .format _ => true | _ => false
    let erasing : Bool := match op with
      | .sectorErase _ => true | .settingsErase _ => true | .format (.settingsErase _) => true
      | .format (.ringErase _) => true | _ => false
    let h := s.history
    let sector (ring seq : Nat) : Nat := seq % ring + 1
    let outside (base count : Nat) (t : State) : Prop := t.flash.settings = s.flash.settings ∧
      ∀ a, a < base ∨ base + count ≤ a → readByte t.flash.cells a = readByte s.flash.cells a
    let kept (t : State) : Prop :=
      (op = .flushProgram → outside (sector (h.ringSize.getD 0) h.head * 65536 + h.writeSlot * 128) 128 t) ∧
      (∀ seq, op = .sectorErase seq → outside (sector (h.ringSize.getD 0) seq * 65536) 65536 t) ∧
      (∀ seq, op = .sectorHeader seq → outside (sector (h.ringSize.getD 0) seq * 65536) 128 t) ∧
      (∀ k, op = .format (.ringErase k) → outside (k * 65536) 65536 t) ∧
      (∀ f, op = .format .header → h.format = some f → outside (sector f.size f.first * 65536) 128 t) ∧
      ((∃ i, op = .settingsErase i ∨ op = .settingsProgram i ∨ op = .format (.settingsErase i) ∨
        op = .format (.settingsProgram i)) → t.flash = { s.flash with settings := .partialImage })
    let failed (cause : FaultCause) (t : State) : Prop :=
      Frame [.flash, .link, .history, .recipes, .ports, .free] s t ∧ kept t ∧
      t.link = { s.link with op := none, left := none } ∧
      t.recipes = { s.recipes with save := t.recipes.save, lastSave := t.recipes.lastSave } ∧
      (s.history.memory ≠ .formatting ∨ formatting = true → t.history = { h with
          memory := .fault, cause := some cause, format := if formatting then none else h.format } ∧
        (s.history.memory.faulty = false → Raised .historyFault t) ∧
        (∀ r, s.recipes.save = some r → r.granted = false → t.recipes.save = none ∧
          t.recipes.lastSave = some .memoryFault)) ∧
      (s.history.memory = .formatting → formatting = false → t.history = s.history) ∧
      (flush = true → t.flash.settings = s.flash.settings) ∧
      (saving = true → t.flash = { s.flash with settings := .partialImage } ∧ t.recipes.save = none ∧
        (s.recipes.save ≠ none → t.recipes.lastSave = some .memoryFault)) ∧
      (∀ r kind, s.recipes.save = some r → (s.port r.port).slot = .running kind r.op →
        saving = true ∨ r.granted = false ∧ (s.history.memory ≠ .formatting ∨ formatting = true) →
        (t.port r.port).slot = .done kind .memoryFault [] ∧ Raised .opDone t) ∧
      (formatting = true → t.history.format = none ∧
        ∀ f kind, s.history.format = some f → (s.port f.port).slot = .running kind f.op →
          (∀ r, s.recipes.save = some r → r.port ≠ f.port ∨ r.op ≠ f.op) →
          (t.port f.port).slot = .done kind .memoryFault (u8 cause.code) ∧ Raised .opDone t)
    ((∀ p d, op ≠ .portRead p d) → ∃ t, exec .flashStepTimeout s = .next t ∧
      failed (if erasing then .eraseTimeout else .programTimeout) t) ∧
    ((∃ p d, op = .portRead p d) → exec .flashStepTimeout s = .next s) ∧
    (op = .flushProgram → ∃ t, exec (.flushProgramDone false) s = .next t ∧ failed .verify t) ∧
    (∀ seq, op = .sectorHeader seq → ∃ t, exec (.sectorHeaderDone false) s = .next t ∧ failed .verify t) ∧
    (∀ i, op = .settingsProgram i → ∃ t, exec (.settingsSaveDone false) s = .next t ∧ failed .verify t) ∧
    (∀ x, op = .format x → s.history.format.isSome = true → x = .header ∨ (∃ i, x = .settingsProgram i) →
      ∃ t, exec (.formatStepDone false) s = .next t ∧ failed .verify t))

/-- History reads and the drain (R162, R173 to R176). An open places the cursor, its read state IDLE; a next hands over a fetched
answer, or answers at once at the end or before the oldest record, or lines up a read; a served read finds the first valid slot
from the cursor on. A drain hands over the queue head with the index 0xFFFFFFFF while the memory is neither READY nor
FORMATTING, its bytes being those of R191 (written out in FlushStepsWriteRecordsAndSectors); the offer passes follow it (R16, State.OffersMade), with the onset of COMMIT_BLOCKED (R17, log 49) and what waits for
the cell to be idle (R149). -/
def Obligations.HistoryIsReadAndTheQueueDrained : Prop :=
  (∀ (p : Port) (form b0 b1 b2 b3 : Byte) (s : State), (s.port p).recv = .request → (s.port p).role ∈ rolesAll →
    (let h := s.history
    let q := s.port p
    let oldest : Nat := h.oldest * 511
    let next : Nat := h.head * 511 + (h.writeSlot - 1)
    let value : Nat := b0.toNat + 256 * b1.toNat + 65536 * b2.toNat + 16777216 * b3.toNat
    let refusal : Option Status := match h.memory with
      | .absent => some .noMemory | .unformatted => some .wrongState | .formatting => some .busy | _ => none
    let openIt : Instr := .historyOpen p [form, b0, b1, b2, b3]
    let more : Instr := .historyNext p []
    let answers (c : Instr) (r : Response) : Prop := exec c s = .next (s.answered p r)
    let opened (status : Status) (cursor : Nat) : Prop := ∃ t, exec openIt s = .next t ∧ Frame [.ports, .link] s t ∧
      OtherPorts p s t ∧ t.port p = { q with
        recv := .working, response := some ⟨status, 0, u32 cursor ++ u32 oldest ++ u32 next⟩
        cursor := cursor, cursorValid := true, read := .idle } ∧
      t.link = (if ∃ d, s.link.op = some (.portRead p d) then { s.link with op := some (.portRead p true) } else s.link)
    (2 < form.toNat → answers openIt ⟨.badValue, 0, []⟩) ∧
    (∀ status, form.toNat ≤ 2 → refusal = some status → answers openIt ⟨status, 0, []⟩) ∧
    (refusal = none →
      (form = 0#8 → opened .ok value) ∧ (form = 1#8 → opened .ok oldest) ∧
      (form = 2#8 → opened (if value ≤ 65535 then .ok else .okClamped)
        (if oldest + min 65535 value + 1 ≤ next then next - 1 - min 65535 value else oldest))) ∧
    (∀ answer, q.read = .fetched answer → exec more s = .next { s with
      ports := s.ports.set p { q with
        recv := .working, read := .idle
        response := some (match answer with
          | .record bytes skipped => ⟨.ok, 0, bytes ++ u32 skipped⟩
          | .ended skipped => ⟨.ended, 0, u32 skipped⟩
          | .erased oldest => ⟨.erased, 0, u32 oldest⟩
          | .formatted => ⟨.formatted, 0, []⟩) } }) ∧
    ((∀ answer, q.read ≠ .fetched answer) →
      (q.cursorValid = false → answers more ⟨.noCursor, 0, []⟩) ∧
      (q.cursorValid = true →
        (∀ status, refusal = some status → answers more ⟨status, 0, []⟩) ∧
        (refusal = none →
          (q.read = .waiting → answers more ⟨.pending, 0, []⟩) ∧
          (q.read = .idle → next ≤ q.cursor → answers more ⟨.ended, 0, u32 0⟩) ∧
          (q.read = .idle → q.cursor < next → q.cursor < oldest → exec more s = .next { s with
            ports := s.ports.set p { q with
              recv := .working, cursor := oldest, response := some ⟨.erased, 0, u32 oldest⟩ } }) ∧
          (q.read = .idle → q.cursor < next → oldest ≤ q.cursor → exec more s = .next { s with
            ports := s.ports.set p { q with
              recv := .working, read := .waiting, response := some ⟨.pending, 0, []⟩ } })))))) ∧
  (∀ (p : Port) (s : State),
    (let h := s.history
    let q := s.port p
    let next : Nat := h.head * 511 + (h.writeSlot - 1)
    let slot (index : Nat) : List Byte := (List.range 128).map (fun i =>
      readByte s.flash.cells ((index / 511 % h.ringSize.getD 0 + 1) * 65536 + (index % 511 + 1) * 128 + i))
    let served (answer : ReadAnswer) (cursor : Nat) : Prop := exec .portReadDone s = .next { s with
      link := { s.link with op := none, left := none }
      ports := s.ports.set p { q with read := .fetched answer, cursor := cursor } }
    (s.link.op = some (.portRead p true) → exec .portReadDone s = .next { s with
      link := { s.link with op := none, left := none } }) ∧
    (s.link.op = some (.portRead p false) →
      (q.cursor < h.oldest * 511 → served (.erased (h.oldest * 511)) (h.oldest * 511)) ∧
      (h.oldest * 511 ≤ q.cursor → next ≤ q.cursor → served (.ended 0) next) ∧
      (h.oldest * 511 ≤ q.cursor → ∀ index, q.cursor ≤ index → index < next → slotValid (slot index) = true →
        (∀ j, q.cursor ≤ j → j < index → slotValid (slot j) = false) →
        served (.record (slot index) (index - q.cursor)) (index + 1)) ∧
      (h.oldest * 511 ≤ q.cursor → q.cursor < next → (∀ j, q.cursor ≤ j → j < next → slotValid (slot j) = false) →
        served (.ended (next - q.cursor)) next)))) ∧
  (∀ (p : Port) (s : State), Taken Summary.drain p [] s →
    (let h := s.history
    (h.memory = .ready ∨ h.memory = .formatting → exec (.drain p []) s = .next (s.answered p ⟨.wrongState, 0, []⟩)) ∧
    (h.memory ≠ .ready → h.memory ≠ .formatting →
      (s.commit.records = [] → exec (.drain p []) s = .next (s.answered p ⟨.nothing, 0, []⟩)) ∧
      (∀ r rest, s.commit.records = r :: rest → ∃ t, exec (.drain p []) s = .next t ∧
        Frame [.commit, .board, .recipes, .ports] s t ∧
        Answered p ⟨.ok, 0, r.bytes 0xFFFFFFFF ++ u8 rest.length⟩ s t ∧
        State.OffersMade { s with commit := { s.commit with records := rest } } t ∧ BlockedReported s t ∧ s.AppliedAtIdle t ∧
        (s.offerTarget = none → t.commit = { s.commit with records := rest } ∧ t.board = s.board)))))

/-! ## Invariants -/

/-- The machine right after reset meets every invariant stated here, and no command waits. State.reset holds
values the model chose (log 4 to log 7). -/
def Obligations.ResetMeetsEveryInvariant : Prop :=
  State.reset.pending = [] ∧ State.reset.budgetKept ∧ State.reset.outputsKept ∧ State.reset.sensingKept ∧
    State.reset.controlKept ∧ State.reset.linesKept ∧ State.reset.ejectorsKept ∧ State.reset.boardKept ∧
    State.reset.shotsKept ∧ State.reset.queueKept ∧ State.reset.idleKept ∧ State.reset.commitKept ∧
    State.reset.flashKept ∧ State.reset.offKept ∧ State.reset.slotsKept ∧ State.reset.grantKept

/-- What every step keeps of the Line Monitor (R25 to R28, R30) and of the ejectors (R130, R131, R135, R136, R141): a valve is
on exactly in FORWARD, and only a cylinder that holds a slot is in FORWARD or RETURN. So the valves that are on are never more
than the slots in force. No cylinder waits while a configured slot is free (R135). The demould grant is in force exactly while
some daylight of its set is DEMOULDING, so that it ends in the step in which the last one leaves (R133); only a demould request
puts another in force. -/
def Obligations.LinesAndEjectorsKeptByEveryStep : Prop :=
  (∀ s t : State, s.linesKept → step s = .next t → t.linesKept) ∧
  (∀ s t : State, s.linesKept → s.ejectorsKept → step s = .next t → t.ejectorsKept) ∧
  (∀ s : State, s.ejectorsKept → s.valvesOn ≤ s.arbiter.slotsInForce) ∧
  (∀ s t : State, s.linesKept → s.ejectorsKept → s.slotsKept → step s = .next t → t.slotsKept) ∧
  (∀ s t : State, s.grantKept → step s = .next t → t.grantKept ∧
    (t.demould.grant = none ∨ t.demould.grant = s.demould.grant ∨
      ∃ p payload rest, s.pending = .demouldRequest p payload :: rest))

/-- What every step keeps of the sensed values, the zones, the window clock and the outputs (R32, R33, R38, R45, R47, R67, R30, R76):
among them, that the history holds at least the samples of the second in progress, and that no window start is further off than
the window is long. The outputs' invariant
rests on the model's field `blocked` (DEDUCED, log 42). -/
def Obligations.SensingControlAndOutputsKeptByEveryStep : Prop :=
  (∀ s t : State, s.sensingKept → step s = .next t → t.sensingKept) ∧
  (∀ s t : State, s.controlKept → step s = .next t → t.controlKept) ∧
  (∀ s t : State, s.outputsKept → step s = .next t → t.outputsKept)

/-- What every step keeps of the Daylight Board and of the shots (R1, R2, R6, R7, R16, R167): SHOT records enter the Commit Queue
in rising order of their numbers, each below every shot that is still on the board; while a sequence runs, the shot record holds
its attempt and its stroke failed flag (R130). A closed
shot in AWAIT_COMMIT counts as open (DEDUCED, log 23). -/
def Obligations.BoardAndShotOrderKeptByEveryStep : Prop :=
  (∀ s t : State, s.boardKept → s.ejectorsKept → step s = .next t → t.boardKept) ∧
  (∀ s t : State, s.shotsKept → step s = .next t → t.shotsKept)

/-- What every step keeps of the Charge Builder and its queue (R112, R125, R149), and of the application at idle (R149, R151):
every queued charge and the one in progress were built under the active recipe slot and its present version. -/
def Obligations.ChargesAndRecipesKeptByEveryStep : Prop :=
  (∀ s t : State, s.queueKept → step s = .next t → t.queueKept) ∧
  (∀ s t : State, s.queueKept → s.idleKept → step s = .next t → t.idleKept)

/-- What every step keeps of the Commit Queue, the flash and the OFF ports (R160, R162, R179): never more than 12 records, and
only a SHOT record takes one of the last four places; the canonical form; no notice and no mask. -/
def Obligations.CommitQueueFlashAndOffPortsKeptByEveryStep : Prop :=
  (∀ s t : State, s.commitKept → step s = .next t → t.commitKept ∧
    (∀ r ∈ t.commit.records.drop 8, r ∈ s.commit.records ∨ ∃ x, r = .shot x)) ∧
  (∀ s t : State, s.flashKept → step s = .next t → t.flashKept) ∧
  (∀ s t : State, s.offKept → step s = .next t → t.offKept)

/-- A daylight changes its state only as the table of section 1.1 says (R5 to R18): by the commands and in the directions of
`moves`, or to UNKNOWN by device reset. -/
def Obligations.DaylightsMoveOnlyAsTheTableSays : Prop :=
  ∀ (c : Instr) (s t : State) (d : Daylight), s.linesKept → s.ejectorsKept → exec c s = .next t →
    (t.entry d).state = (s.entry d).state ∨ moves c (s.entry d).state (t.entry d).state = true ∨
      ((∃ straps memory, c = .deviceReset straps memory) ∧ (t.entry d).state = .unknown)
end
end

