-- ==== Sys2Proof/Laws/State.lean ====
section
/-! SUPPORT. One lemma per field per update: what a get reads after a set, and the blocks that each update of one item
leaves alone, so that no proof unfolds a record update. -/

namespace Sys2Proof

/-! ## Families: a get after a set -/

@[simp] theorem Three.get_set {α : Type} (f : Three α) (i j : Port) (x : α) :
    (f.set i x).get j = if j = i then x else f.get j := by
  cases i <;> cases j <;> rfl

theorem Three.get_set_self {α : Type} (f : Three α) (i : Port) (x : α) : (f.set i x).get i = x := by
  cases i <;> rfl

theorem Three.get_set_ne {α : Type} (f : Three α) (i j : Port) (x : α) (h : j ≠ i) : (f.set i x).get j = f.get j := by
  rw [Three.get_set, if_neg h]

@[simp] theorem Three.set_get {α : Type} (f : Three α) (i : Port) : f.set i (f.get i) = f := by cases i <;> rfl

@[simp] theorem Three.set_set {α : Type} (f : Three α) (i : Port) (x y : α) : (f.set i x).set i y = f.set i y := by
  cases i <;> rfl

theorem Three.set_comm {α : Type} (f : Three α) (i j : Port) (x y : α) (h : i ≠ j) :
    (f.set i x).set j y = (f.set j y).set i x := by
  cases i <;> cases j <;> first | rfl | exact absurd rfl h

@[simp] theorem Three.get_map {α β : Type} (g : α → β) (f : Three α) (i : Port) : (f.map g).get i = g (f.get i) := by
  cases i <;> rfl

theorem Three.ext_get {α : Type} (f g : Three α) (h : ∀ i, f.get i = g.get i) : f = g := by
  have h0 := h .p1
  have h1 := h .p2
  have h2 := h .p3
  cases f; cases g
  simp only [Three.get] at h0 h1 h2
  subst h0 h1 h2
  rfl

@[simp] theorem Four.get_set {α : Type} (f : Four α) (i j : Daylight) (x : α) :
    (f.set i x).get j = if j = i then x else f.get j := by
  cases i <;> cases j <;> rfl

theorem Four.get_set_self {α : Type} (f : Four α) (i : Daylight) (x : α) : (f.set i x).get i = x := by
  cases i <;> rfl

theorem Four.get_set_ne {α : Type} (f : Four α) (i j : Daylight) (x : α) (h : j ≠ i) : (f.set i x).get j = f.get j := by
  rw [Four.get_set, if_neg h]

@[simp] theorem Four.set_get {α : Type} (f : Four α) (i : Daylight) : f.set i (f.get i) = f := by cases i <;> rfl

@[simp] theorem Four.set_set {α : Type} (f : Four α) (i : Daylight) (x y : α) : (f.set i x).set i y = f.set i y := by
  cases i <;> rfl

theorem Four.set_comm {α : Type} (f : Four α) (i j : Daylight) (x y : α) (h : i ≠ j) :
    (f.set i x).set j y = (f.set j y).set i x := by
  cases i <;> cases j <;> first | rfl | exact absurd rfl h

@[simp] theorem Four.get_map {α β : Type} (g : α → β) (f : Four α) (i : Daylight) : (f.map g).get i = g (f.get i) := by
  cases i <;> rfl

theorem Four.ext_get {α : Type} (f g : Four α) (h : ∀ i, f.get i = g.get i) : f = g := by
  have h0 := h .d1
  have h1 := h .d2
  have h2 := h .d3
  have h3 := h .d4
  cases f; cases g
  simp only [Four.get] at h0 h1 h2 h3
  subst h0 h1 h2 h3
  rfl

@[simp] theorem Eight.get_set {α : Type} (f : Eight α) (i j : RecipeSlot) (x : α) :
    (f.set i x).get j = if j = i then x else f.get j := by
  cases i <;> cases j <;> rfl

theorem Eight.get_set_self {α : Type} (f : Eight α) (i : RecipeSlot) (x : α) : (f.set i x).get i = x := by
  cases i <;> rfl

theorem Eight.get_set_ne {α : Type} (f : Eight α) (i j : RecipeSlot) (x : α) (h : j ≠ i) : (f.set i x).get j = f.get j := by
  rw [Eight.get_set, if_neg h]

@[simp] theorem Eight.set_get {α : Type} (f : Eight α) (i : RecipeSlot) : f.set i (f.get i) = f := by cases i <;> rfl

@[simp] theorem Eight.set_set {α : Type} (f : Eight α) (i : RecipeSlot) (x y : α) : (f.set i x).set i y = f.set i y := by
  cases i <;> rfl

theorem Eight.set_comm {α : Type} (f : Eight α) (i j : RecipeSlot) (x y : α) (h : i ≠ j) :
    (f.set i x).set j y = (f.set j y).set i x := by
  cases i <;> cases j <;> first | rfl | exact absurd rfl h

@[simp] theorem Eight.get_map {α β : Type} (g : α → β) (f : Eight α) (i : RecipeSlot) : (f.map g).get i = g (f.get i) := by
  cases i <;> rfl

theorem Eight.ext_get {α : Type} (f g : Eight α) (h : ∀ i, f.get i = g.get i) : f = g := by
  have h0 := h .s0
  have h1 := h .s1
  have h2 := h .s2
  have h3 := h .s3
  have h4 := h .s4
  have h5 := h .s5
  have h6 := h .s6
  have h7 := h .s7
  cases f; cases g
  simp only [Eight.get] at h0 h1 h2 h3 h4 h5 h6 h7
  subst h0 h1 h2 h3 h4 h5 h6 h7
  rfl

@[simp] theorem Ten.get_set {α : Type} (f : Ten α) (i j : Zone) (x : α) :
    (f.set i x).get j = if j = i then x else f.get j := by
  cases i <;> cases j <;> rfl

theorem Ten.get_set_self {α : Type} (f : Ten α) (i : Zone) (x : α) : (f.set i x).get i = x := by
  cases i <;> rfl

theorem Ten.get_set_ne {α : Type} (f : Ten α) (i j : Zone) (x : α) (h : j ≠ i) : (f.set i x).get j = f.get j := by
  rw [Ten.get_set, if_neg h]

@[simp] theorem Ten.set_get {α : Type} (f : Ten α) (i : Zone) : f.set i (f.get i) = f := by cases i <;> rfl

@[simp] theorem Ten.set_set {α : Type} (f : Ten α) (i : Zone) (x y : α) : (f.set i x).set i y = f.set i y := by
  cases i <;> rfl

theorem Ten.set_comm {α : Type} (f : Ten α) (i j : Zone) (x y : α) (h : i ≠ j) :
    (f.set i x).set j y = (f.set j y).set i x := by
  cases i <;> cases j <;> first | rfl | exact absurd rfl h

@[simp] theorem Ten.get_map {α β : Type} (g : α → β) (f : Ten α) (i : Zone) : (f.map g).get i = g (f.get i) := by
  cases i <;> rfl

theorem Ten.ext_get {α : Type} (f g : Ten α) (h : ∀ i, f.get i = g.get i) : f = g := by
  have h0 := h .z0
  have h1 := h .z1
  have h2 := h .z2
  have h3 := h .z3
  have h4 := h .z4
  have h5 := h .z5
  have h6 := h .z6
  have h7 := h .z7
  have h8 := h .z8
  have h9 := h .z9
  cases f; cases g
  simp only [Ten.get] at h0 h1 h2 h3 h4 h5 h6 h7 h8 h9
  subst h0 h1 h2 h3 h4 h5 h6 h7 h8 h9
  rfl

@[simp] theorem Four.get_all {α : Type} (x : α) (d : Daylight) : (Four.all x).get d = x := by cases d <;> rfl

@[simp] theorem Eight.get_all {α : Type} (x : α) (k : RecipeSlot) : (Eight.all x).get k = x := by cases k <;> rfl

@[simp] theorem Ten.get_tabulate {α : Type} (g : Zone → α) (z : Zone) : (Ten.tabulate g).get z = g z := by
  cases z <;> rfl

@[simp] theorem Ten.get_all {α : Type} (x : α) (z : Zone) : (Ten.all x).get z = x := by cases z <;> rfl

@[simp] theorem Five.get_map {α β : Type} (g : α → β) (f : Five α) (p : Platen) : (f.map g).get p = g (f.get p) := by
  cases p <;> rfl

@[simp] theorem Three.map_set {α β : Type} (g : α → β) (f : Three α) (p : Port) (x : α) :
    (f.set p x).map g = (f.map g).set p (g x) := by
  cases p <;> rfl

namespace Machine

@[simp] theorem Lines.get_set {α : Type} (f : Lines α) (l m : Line) (x : α) :
    (f.set l x).get m = if m = l then x else f.get m := by
  cases l <;> cases m <;> simp [Lines.get, Lines.set]

@[simp] theorem Lines.get_map {α β : Type} (g : α → β) (f : Lines α) (l : Line) : (f.map g).get l = g (f.get l) := by
  cases l <;> simp [Lines.get, Lines.map]

@[simp] theorem ZoneTrips.get_set (t : ZoneTrips) (src src' : Source) (x : Trip) :
    (t.set src x).get src' = if src' = src then x else t.get src' := by
  cases src <;> cases src' <;> rfl

/-! ## What an item reads after its own update -/

@[simp] theorem State.modPort_port (p q : Port) (f : PortState → PortState) (s : State) :
    (s.modPort p f).port q = if q = p then f (s.port p) else s.port q := Three.get_set ..

@[simp] theorem State.answered_port (p q : Port) (r : Response) (s : State) :
    (s.answered p r).port q = if q = p then { s.port p with recv := .working, response := some r } else s.port q :=
  Three.get_set ..

@[simp] theorem State.raise_port (k : Notice) (p : Port) (s : State) :
    (s.raise k).port p = (s.port p).notify k.word := Three.get_map ..

@[simp] theorem State.modEntry_entry (d e : Daylight) (f : Entry → Entry) (s : State) :
    (s.modEntry d f).entry e = if e = d then f (s.entry d) else s.entry e := Four.get_set ..

@[simp] theorem State.enterState_entry (d e : Daylight) (x : DaylightState) (s : State) :
    (s.enterState d x).entry e = if e = d then { s.entry d with state := x } else s.entry e := Four.get_set ..

@[simp] theorem State.enterState_port (d : Daylight) (x : DaylightState) (p : Port) (s : State) :
    (s.enterState d x).port p = (s.port p).notify Notice.daylight.word := Three.get_map ..

@[simp] theorem State.modEjector_ejector (d e : Daylight) (f : Ejector → Ejector) (s : State) :
    (s.modEjector d f).ejector e = if e = d then f (s.ejector d) else s.ejector e := Four.get_set ..

@[simp] theorem State.setFailed_ejector (d e : Daylight) (b : Bool) (s : State) :
    (s.setFailed d b).ejector e = if e = d then { s.ejector d with failed := b } else s.ejector e := Four.get_set ..

@[simp] theorem State.setFailed_entry (d e : Daylight) (b : Bool) (s : State) :
    (s.setFailed d b).entry e = if e = d then
      { s.entry d with shot := (s.entry d).shot.map (fun x => { x with strokeFailed := b }) } else s.entry e := Four.get_set ..

@[simp] theorem State.setHolder_holds (d e : Daylight) (b : Bool) (s : State) :
    (s.setHolder d b).holds e = if e = d then b else s.holds e := Four.get_set ..

@[simp] theorem State.setHolder_waits (d e : Daylight) (b : Bool) (s : State) :
    (s.setHolder d b).waits e = s.waits e := rfl

@[simp] theorem State.setWaiting_waits (d e : Daylight) (b : Bool) (s : State) :
    (s.setWaiting d b).waits e = if e = d then b else s.waits e := Four.get_set ..

@[simp] theorem State.setWaiting_holds (d e : Daylight) (b : Bool) (s : State) :
    (s.setWaiting d b).holds e = s.holds e := rfl

@[simp] theorem State.modChannel_channel (z y : Zone) (f : Channel → Channel) (s : State) :
    (s.modChannel z f).channel y = if y = z then f (s.channel z) else s.channel y := Ten.get_set ..

@[simp] theorem State.modZone_zone (z y : Zone) (f : ZoneControl → ZoneControl) (s : State) :
    (s.modZone z f).zone y = if y = z then f (s.zone z) else s.zone y := Ten.get_set ..

@[simp] theorem State.modTrip_trip (z y : Zone) (src src' : Source) (f : Trip → Trip) (s : State) :
    (s.modTrip z src f).trip y src' = if y = z ∧ src' = src then f (s.trip z src) else s.trip y src' := by
  cases z <;> cases y <;> cases src <;> cases src' <;> rfl

@[simp] theorem State.modLine_line (l m : Line) (f : LineState → LineState) (s : State) :
    (s.modLine l f).lines.line.get m = if m = l then f (s.lines.line.get l) else s.lines.line.get m := Lines.get_set ..

@[simp] theorem State.modSlot_get (k j : RecipeSlot) (f : SlotContent → SlotContent) (s : State) :
    (s.modSlot k f).recipes.slots.get j = if j = k then f (s.recipes.slots.get k) else s.recipes.slots.get j :=
  Eight.get_set ..

@[simp] theorem State.setCure_get (d e : Daylight) (x : CureState) (s : State) :
    (s.setCure d x).cure.get e = if e = d then x else s.cure.get e := Four.get_set ..

/-! ## The blocks that an update leaves alone -/

/-! ### modPort -/

@[simp] theorem State.modPort_clock (p : Port) (f : PortState → PortState) (s : State) : (s.modPort p f).clock = s.clock := rfl
@[simp] theorem State.modPort_periods (p : Port) (f : PortState → PortState) (s : State) : (s.modPort p f).periods = s.periods := rfl
@[simp] theorem State.modPort_lines (p : Port) (f : PortState → PortState) (s : State) : (s.modPort p f).lines = s.lines := rfl
@[simp] theorem State.modPort_channels (p : Port) (f : PortState → PortState) (s : State) : (s.modPort p f).channels = s.channels := rfl
@[simp] theorem State.modPort_zones (p : Port) (f : PortState → PortState) (s : State) : (s.modPort p f).zones = s.zones := rfl
@[simp] theorem State.modPort_budget (p : Port) (f : PortState → PortState) (s : State) : (s.modPort p f).budget = s.budget := rfl
@[simp] theorem State.modPort_window (p : Port) (f : PortState → PortState) (s : State) : (s.modPort p f).window = s.window := rfl
@[simp] theorem State.modPort_trips (p : Port) (f : PortState → PortState) (s : State) : (s.modPort p f).trips = s.trips := rfl
@[simp] theorem State.modPort_cure (p : Port) (f : PortState → PortState) (s : State) : (s.modPort p f).cure = s.cure := rfl
@[simp] theorem State.modPort_weigh (p : Port) (f : PortState → PortState) (s : State) : (s.modPort p f).weigh = s.weigh := rfl
@[simp] theorem State.modPort_builder (p : Port) (f : PortState → PortState) (s : State) : (s.modPort p f).builder = s.builder := rfl
@[simp] theorem State.modPort_queue (p : Port) (f : PortState → PortState) (s : State) : (s.modPort p f).queue = s.queue := rfl
@[simp] theorem State.modPort_board (p : Port) (f : PortState → PortState) (s : State) : (s.modPort p f).board = s.board := rfl
@[simp] theorem State.modPort_demould (p : Port) (f : PortState → PortState) (s : State) : (s.modPort p f).demould = s.demould := rfl
@[simp] theorem State.modPort_arbiter (p : Port) (f : PortState → PortState) (s : State) : (s.modPort p f).arbiter = s.arbiter := rfl
@[simp] theorem State.modPort_recipes (p : Port) (f : PortState → PortState) (s : State) : (s.modPort p f).recipes = s.recipes := rfl
@[simp] theorem State.modPort_commit (p : Port) (f : PortState → PortState) (s : State) : (s.modPort p f).commit = s.commit := rfl
@[simp] theorem State.modPort_history (p : Port) (f : PortState → PortState) (s : State) : (s.modPort p f).history = s.history := rfl
@[simp] theorem State.modPort_link (p : Port) (f : PortState → PortState) (s : State) : (s.modPort p f).link = s.link := rfl
@[simp] theorem State.modPort_flash (p : Port) (f : PortState → PortState) (s : State) : (s.modPort p f).flash = s.flash := rfl
@[simp] theorem State.modPort_nextOp (p : Port) (f : PortState → PortState) (s : State) : (s.modPort p f).nextOp = s.nextOp := rfl
@[simp] theorem State.modPort_free (p : Port) (f : PortState → PortState) (s : State) : (s.modPort p f).free = s.free := rfl
@[simp] theorem State.modPort_pending (p : Port) (f : PortState → PortState) (s : State) : (s.modPort p f).pending = s.pending := rfl
@[simp] theorem State.modPort_entry (p : Port) (f : PortState → PortState) (s : State) (e : Daylight) : (s.modPort p f).entry e = s.entry e := rfl
@[simp] theorem State.modPort_ejector (p : Port) (f : PortState → PortState) (s : State) (e : Daylight) : (s.modPort p f).ejector e = s.ejector e := rfl
@[simp] theorem State.modPort_channel (p : Port) (f : PortState → PortState) (s : State) (y : Zone) : (s.modPort p f).channel y = s.channel y := rfl
@[simp] theorem State.modPort_zone (p : Port) (f : PortState → PortState) (s : State) (y : Zone) : (s.modPort p f).zone y = s.zone y := rfl
@[simp] theorem State.modPort_level (p : Port) (f : PortState → PortState) (s : State) (l' : Line) : (s.modPort p f).level l' = s.level l' := rfl
@[simp] theorem State.modPort_holds (p : Port) (f : PortState → PortState) (s : State) (e : Daylight) : (s.modPort p f).holds e = s.holds e := rfl
@[simp] theorem State.modPort_waits (p : Port) (f : PortState → PortState) (s : State) (e : Daylight) : (s.modPort p f).waits e = s.waits e := rfl
@[simp] theorem State.modPort_depth (p : Port) (f : PortState → PortState) (s : State) : (s.modPort p f).depth = s.depth := rfl
@[simp] theorem State.modPort_home (p : Port) (f : PortState → PortState) (s : State) (e : Daylight) : (s.modPort p f).home e = s.home e := rfl
@[simp] theorem State.modPort_fwd (p : Port) (f : PortState → PortState) (s : State) (e : Daylight) : (s.modPort p f).fwd e = s.fwd e := rfl
@[simp] theorem State.modPort_heatHold (p : Port) (f : PortState → PortState) (s : State) : (s.modPort p f).heatHold = s.heatHold := rfl
@[simp] theorem State.modPort_activeRecipe (p : Port) (f : PortState → PortState) (s : State) : (s.modPort p f).activeRecipe = s.activeRecipe := rfl

/-! ### respond -/

@[simp] theorem State.respond_clock (p : Port) (r : Response) (s : State) : (s.respond p r).clock = s.clock := rfl
@[simp] theorem State.respond_periods (p : Port) (r : Response) (s : State) : (s.respond p r).periods = s.periods := rfl
@[simp] theorem State.respond_lines (p : Port) (r : Response) (s : State) : (s.respond p r).lines = s.lines := rfl
@[simp] theorem State.respond_channels (p : Port) (r : Response) (s : State) : (s.respond p r).channels = s.channels := rfl
@[simp] theorem State.respond_zones (p : Port) (r : Response) (s : State) : (s.respond p r).zones = s.zones := rfl
@[simp] theorem State.respond_budget (p : Port) (r : Response) (s : State) : (s.respond p r).budget = s.budget := rfl
@[simp] theorem State.respond_window (p : Port) (r : Response) (s : State) : (s.respond p r).window = s.window := rfl
@[simp] theorem State.respond_trips (p : Port) (r : Response) (s : State) : (s.respond p r).trips = s.trips := rfl
@[simp] theorem State.respond_cure (p : Port) (r : Response) (s : State) : (s.respond p r).cure = s.cure := rfl
@[simp] theorem State.respond_weigh (p : Port) (r : Response) (s : State) : (s.respond p r).weigh = s.weigh := rfl
@[simp] theorem State.respond_builder (p : Port) (r : Response) (s : State) : (s.respond p r).builder = s.builder := rfl
@[simp] theorem State.respond_queue (p : Port) (r : Response) (s : State) : (s.respond p r).queue = s.queue := rfl
@[simp] theorem State.respond_board (p : Port) (r : Response) (s : State) : (s.respond p r).board = s.board := rfl
@[simp] theorem State.respond_demould (p : Port) (r : Response) (s : State) : (s.respond p r).demould = s.demould := rfl
@[simp] theorem State.respond_arbiter (p : Port) (r : Response) (s : State) : (s.respond p r).arbiter = s.arbiter := rfl
@[simp] theorem State.respond_recipes (p : Port) (r : Response) (s : State) : (s.respond p r).recipes = s.recipes := rfl
@[simp] theorem State.respond_commit (p : Port) (r : Response) (s : State) : (s.respond p r).commit = s.commit := rfl
@[simp] theorem State.respond_history (p : Port) (r : Response) (s : State) : (s.respond p r).history = s.history := rfl
@[simp] theorem State.respond_link (p : Port) (r : Response) (s : State) : (s.respond p r).link = s.link := rfl
@[simp] theorem State.respond_flash (p : Port) (r : Response) (s : State) : (s.respond p r).flash = s.flash := rfl
@[simp] theorem State.respond_nextOp (p : Port) (r : Response) (s : State) : (s.respond p r).nextOp = s.nextOp := rfl
@[simp] theorem State.respond_free (p : Port) (r : Response) (s : State) : (s.respond p r).free = s.free := rfl
@[simp] theorem State.respond_pending (p : Port) (r : Response) (s : State) : (s.respond p r).pending = s.pending := rfl
@[simp] theorem State.respond_entry (p : Port) (r : Response) (s : State) (e : Daylight) : (s.respond p r).entry e = s.entry e := rfl
@[simp] theorem State.respond_ejector (p : Port) (r : Response) (s : State) (e : Daylight) : (s.respond p r).ejector e = s.ejector e := rfl
@[simp] theorem State.respond_channel (p : Port) (r : Response) (s : State) (y : Zone) : (s.respond p r).channel y = s.channel y := rfl
@[simp] theorem State.respond_zone (p : Port) (r : Response) (s : State) (y : Zone) : (s.respond p r).zone y = s.zone y := rfl
@[simp] theorem State.respond_level (p : Port) (r : Response) (s : State) (l' : Line) : (s.respond p r).level l' = s.level l' := rfl
@[simp] theorem State.respond_holds (p : Port) (r : Response) (s : State) (e : Daylight) : (s.respond p r).holds e = s.holds e := rfl
@[simp] theorem State.respond_waits (p : Port) (r : Response) (s : State) (e : Daylight) : (s.respond p r).waits e = s.waits e := rfl
@[simp] theorem State.respond_depth (p : Port) (r : Response) (s : State) : (s.respond p r).depth = s.depth := rfl
@[simp] theorem State.respond_home (p : Port) (r : Response) (s : State) (e : Daylight) : (s.respond p r).home e = s.home e := rfl
@[simp] theorem State.respond_fwd (p : Port) (r : Response) (s : State) (e : Daylight) : (s.respond p r).fwd e = s.fwd e := rfl
@[simp] theorem State.respond_heatHold (p : Port) (r : Response) (s : State) : (s.respond p r).heatHold = s.heatHold := rfl
@[simp] theorem State.respond_activeRecipe (p : Port) (r : Response) (s : State) : (s.respond p r).activeRecipe = s.activeRecipe := rfl

/-! ### enterWorking -/

@[simp] theorem State.enterWorking_clock (p : Port) (s : State) : (s.enterWorking p).clock = s.clock := rfl
@[simp] theorem State.enterWorking_periods (p : Port) (s : State) : (s.enterWorking p).periods = s.periods := rfl
@[simp] theorem State.enterWorking_lines (p : Port) (s : State) : (s.enterWorking p).lines = s.lines := rfl
@[simp] theorem State.enterWorking_channels (p : Port) (s : State) : (s.enterWorking p).channels = s.channels := rfl
@[simp] theorem State.enterWorking_zones (p : Port) (s : State) : (s.enterWorking p).zones = s.zones := rfl
@[simp] theorem State.enterWorking_budget (p : Port) (s : State) : (s.enterWorking p).budget = s.budget := rfl
@[simp] theorem State.enterWorking_window (p : Port) (s : State) : (s.enterWorking p).window = s.window := rfl
@[simp] theorem State.enterWorking_trips (p : Port) (s : State) : (s.enterWorking p).trips = s.trips := rfl
@[simp] theorem State.enterWorking_cure (p : Port) (s : State) : (s.enterWorking p).cure = s.cure := rfl
@[simp] theorem State.enterWorking_weigh (p : Port) (s : State) : (s.enterWorking p).weigh = s.weigh := rfl
@[simp] theorem State.enterWorking_builder (p : Port) (s : State) : (s.enterWorking p).builder = s.builder := rfl
@[simp] theorem State.enterWorking_queue (p : Port) (s : State) : (s.enterWorking p).queue = s.queue := rfl
@[simp] theorem State.enterWorking_board (p : Port) (s : State) : (s.enterWorking p).board = s.board := rfl
@[simp] theorem State.enterWorking_demould (p : Port) (s : State) : (s.enterWorking p).demould = s.demould := rfl
@[simp] theorem State.enterWorking_arbiter (p : Port) (s : State) : (s.enterWorking p).arbiter = s.arbiter := rfl
@[simp] theorem State.enterWorking_recipes (p : Port) (s : State) : (s.enterWorking p).recipes = s.recipes := rfl
@[simp] theorem State.enterWorking_commit (p : Port) (s : State) : (s.enterWorking p).commit = s.commit := rfl
@[simp] theorem State.enterWorking_history (p : Port) (s : State) : (s.enterWorking p).history = s.history := rfl
@[simp] theorem State.enterWorking_link (p : Port) (s : State) : (s.enterWorking p).link = s.link := rfl
@[simp] theorem State.enterWorking_flash (p : Port) (s : State) : (s.enterWorking p).flash = s.flash := rfl
@[simp] theorem State.enterWorking_nextOp (p : Port) (s : State) : (s.enterWorking p).nextOp = s.nextOp := rfl
@[simp] theorem State.enterWorking_free (p : Port) (s : State) : (s.enterWorking p).free = s.free := rfl
@[simp] theorem State.enterWorking_pending (p : Port) (s : State) : (s.enterWorking p).pending = s.pending := rfl
@[simp] theorem State.enterWorking_entry (p : Port) (s : State) (e : Daylight) : (s.enterWorking p).entry e = s.entry e := rfl
@[simp] theorem State.enterWorking_ejector (p : Port) (s : State) (e : Daylight) : (s.enterWorking p).ejector e = s.ejector e := rfl
@[simp] theorem State.enterWorking_channel (p : Port) (s : State) (y : Zone) : (s.enterWorking p).channel y = s.channel y := rfl
@[simp] theorem State.enterWorking_zone (p : Port) (s : State) (y : Zone) : (s.enterWorking p).zone y = s.zone y := rfl
@[simp] theorem State.enterWorking_level (p : Port) (s : State) (l' : Line) : (s.enterWorking p).level l' = s.level l' := rfl
@[simp] theorem State.enterWorking_holds (p : Port) (s : State) (e : Daylight) : (s.enterWorking p).holds e = s.holds e := rfl
@[simp] theorem State.enterWorking_waits (p : Port) (s : State) (e : Daylight) : (s.enterWorking p).waits e = s.waits e := rfl
@[simp] theorem State.enterWorking_depth (p : Port) (s : State) : (s.enterWorking p).depth = s.depth := rfl
@[simp] theorem State.enterWorking_home (p : Port) (s : State) (e : Daylight) : (s.enterWorking p).home e = s.home e := rfl
@[simp] theorem State.enterWorking_fwd (p : Port) (s : State) (e : Daylight) : (s.enterWorking p).fwd e = s.fwd e := rfl
@[simp] theorem State.enterWorking_heatHold (p : Port) (s : State) : (s.enterWorking p).heatHold = s.heatHold := rfl
@[simp] theorem State.enterWorking_activeRecipe (p : Port) (s : State) : (s.enterWorking p).activeRecipe = s.activeRecipe := rfl

/-! ### answered -/

@[simp] theorem State.answered_clock (p : Port) (r : Response) (s : State) : (s.answered p r).clock = s.clock := rfl
@[simp] theorem State.answered_periods (p : Port) (r : Response) (s : State) : (s.answered p r).periods = s.periods := rfl
@[simp] theorem State.answered_lines (p : Port) (r : Response) (s : State) : (s.answered p r).lines = s.lines := rfl
@[simp] theorem State.answered_channels (p : Port) (r : Response) (s : State) : (s.answered p r).channels = s.channels := rfl
@[simp] theorem State.answered_zones (p : Port) (r : Response) (s : State) : (s.answered p r).zones = s.zones := rfl
@[simp] theorem State.answered_budget (p : Port) (r : Response) (s : State) : (s.answered p r).budget = s.budget := rfl
@[simp] theorem State.answered_window (p : Port) (r : Response) (s : State) : (s.answered p r).window = s.window := rfl
@[simp] theorem State.answered_trips (p : Port) (r : Response) (s : State) : (s.answered p r).trips = s.trips := rfl
@[simp] theorem State.answered_cure (p : Port) (r : Response) (s : State) : (s.answered p r).cure = s.cure := rfl
@[simp] theorem State.answered_weigh (p : Port) (r : Response) (s : State) : (s.answered p r).weigh = s.weigh := rfl
@[simp] theorem State.answered_builder (p : Port) (r : Response) (s : State) : (s.answered p r).builder = s.builder := rfl
@[simp] theorem State.answered_queue (p : Port) (r : Response) (s : State) : (s.answered p r).queue = s.queue := rfl
@[simp] theorem State.answered_board (p : Port) (r : Response) (s : State) : (s.answered p r).board = s.board := rfl
@[simp] theorem State.answered_demould (p : Port) (r : Response) (s : State) : (s.answered p r).demould = s.demould := rfl
@[simp] theorem State.answered_arbiter (p : Port) (r : Response) (s : State) : (s.answered p r).arbiter = s.arbiter := rfl
@[simp] theorem State.answered_recipes (p : Port) (r : Response) (s : State) : (s.answered p r).recipes = s.recipes := rfl
@[simp] theorem State.answered_commit (p : Port) (r : Response) (s : State) : (s.answered p r).commit = s.commit := rfl
@[simp] theorem State.answered_history (p : Port) (r : Response) (s : State) : (s.answered p r).history = s.history := rfl
@[simp] theorem State.answered_link (p : Port) (r : Response) (s : State) : (s.answered p r).link = s.link := rfl
@[simp] theorem State.answered_flash (p : Port) (r : Response) (s : State) : (s.answered p r).flash = s.flash := rfl
@[simp] theorem State.answered_nextOp (p : Port) (r : Response) (s : State) : (s.answered p r).nextOp = s.nextOp := rfl
@[simp] theorem State.answered_free (p : Port) (r : Response) (s : State) : (s.answered p r).free = s.free := rfl
@[simp] theorem State.answered_pending (p : Port) (r : Response) (s : State) : (s.answered p r).pending = s.pending := rfl
@[simp] theorem State.answered_entry (p : Port) (r : Response) (s : State) (e : Daylight) : (s.answered p r).entry e = s.entry e := rfl
@[simp] theorem State.answered_ejector (p : Port) (r : Response) (s : State) (e : Daylight) : (s.answered p r).ejector e = s.ejector e := rfl
@[simp] theorem State.answered_channel (p : Port) (r : Response) (s : State) (y : Zone) : (s.answered p r).channel y = s.channel y := rfl
@[simp] theorem State.answered_zone (p : Port) (r : Response) (s : State) (y : Zone) : (s.answered p r).zone y = s.zone y := rfl
@[simp] theorem State.answered_level (p : Port) (r : Response) (s : State) (l' : Line) : (s.answered p r).level l' = s.level l' := rfl
@[simp] theorem State.answered_holds (p : Port) (r : Response) (s : State) (e : Daylight) : (s.answered p r).holds e = s.holds e := rfl
@[simp] theorem State.answered_waits (p : Port) (r : Response) (s : State) (e : Daylight) : (s.answered p r).waits e = s.waits e := rfl
@[simp] theorem State.answered_depth (p : Port) (r : Response) (s : State) : (s.answered p r).depth = s.depth := rfl
@[simp] theorem State.answered_home (p : Port) (r : Response) (s : State) (e : Daylight) : (s.answered p r).home e = s.home e := rfl
@[simp] theorem State.answered_fwd (p : Port) (r : Response) (s : State) (e : Daylight) : (s.answered p r).fwd e = s.fwd e := rfl
@[simp] theorem State.answered_heatHold (p : Port) (r : Response) (s : State) : (s.answered p r).heatHold = s.heatHold := rfl
@[simp] theorem State.answered_activeRecipe (p : Port) (r : Response) (s : State) : (s.answered p r).activeRecipe = s.activeRecipe := rfl

/-! ### raise -/

@[simp] theorem State.raise_clock (k : Notice) (s : State) : (s.raise k).clock = s.clock := rfl
@[simp] theorem State.raise_periods (k : Notice) (s : State) : (s.raise k).periods = s.periods := rfl
@[simp] theorem State.raise_lines (k : Notice) (s : State) : (s.raise k).lines = s.lines := rfl
@[simp] theorem State.raise_channels (k : Notice) (s : State) : (s.raise k).channels = s.channels := rfl
@[simp] theorem State.raise_zones (k : Notice) (s : State) : (s.raise k).zones = s.zones := rfl
@[simp] theorem State.raise_budget (k : Notice) (s : State) : (s.raise k).budget = s.budget := rfl
@[simp] theorem State.raise_window (k : Notice) (s : State) : (s.raise k).window = s.window := rfl
@[simp] theorem State.raise_trips (k : Notice) (s : State) : (s.raise k).trips = s.trips := rfl
@[simp] theorem State.raise_cure (k : Notice) (s : State) : (s.raise k).cure = s.cure := rfl
@[simp] theorem State.raise_weigh (k : Notice) (s : State) : (s.raise k).weigh = s.weigh := rfl
@[simp] theorem State.raise_builder (k : Notice) (s : State) : (s.raise k).builder = s.builder := rfl
@[simp] theorem State.raise_queue (k : Notice) (s : State) : (s.raise k).queue = s.queue := rfl
@[simp] theorem State.raise_board (k : Notice) (s : State) : (s.raise k).board = s.board := rfl
@[simp] theorem State.raise_demould (k : Notice) (s : State) : (s.raise k).demould = s.demould := rfl
@[simp] theorem State.raise_arbiter (k : Notice) (s : State) : (s.raise k).arbiter = s.arbiter := rfl
@[simp] theorem State.raise_recipes (k : Notice) (s : State) : (s.raise k).recipes = s.recipes := rfl
@[simp] theorem State.raise_commit (k : Notice) (s : State) : (s.raise k).commit = s.commit := rfl
@[simp] theorem State.raise_history (k : Notice) (s : State) : (s.raise k).history = s.history := rfl
@[simp] theorem State.raise_link (k : Notice) (s : State) : (s.raise k).link = s.link := rfl
@[simp] theorem State.raise_flash (k : Notice) (s : State) : (s.raise k).flash = s.flash := rfl
@[simp] theorem State.raise_nextOp (k : Notice) (s : State) : (s.raise k).nextOp = s.nextOp := rfl
@[simp] theorem State.raise_free (k : Notice) (s : State) : (s.raise k).free = s.free := rfl
@[simp] theorem State.raise_pending (k : Notice) (s : State) : (s.raise k).pending = s.pending := rfl
@[simp] theorem State.raise_entry (k : Notice) (s : State) (e : Daylight) : (s.raise k).entry e = s.entry e := rfl
@[simp] theorem State.raise_ejector (k : Notice) (s : State) (e : Daylight) : (s.raise k).ejector e = s.ejector e := rfl
@[simp] theorem State.raise_channel (k : Notice) (s : State) (y : Zone) : (s.raise k).channel y = s.channel y := rfl
@[simp] theorem State.raise_zone (k : Notice) (s : State) (y : Zone) : (s.raise k).zone y = s.zone y := rfl
@[simp] theorem State.raise_level (k : Notice) (s : State) (l' : Line) : (s.raise k).level l' = s.level l' := rfl
@[simp] theorem State.raise_holds (k : Notice) (s : State) (e : Daylight) : (s.raise k).holds e = s.holds e := rfl
@[simp] theorem State.raise_waits (k : Notice) (s : State) (e : Daylight) : (s.raise k).waits e = s.waits e := rfl
@[simp] theorem State.raise_depth (k : Notice) (s : State) : (s.raise k).depth = s.depth := rfl
@[simp] theorem State.raise_home (k : Notice) (s : State) (e : Daylight) : (s.raise k).home e = s.home e := rfl
@[simp] theorem State.raise_fwd (k : Notice) (s : State) (e : Daylight) : (s.raise k).fwd e = s.fwd e := rfl
@[simp] theorem State.raise_heatHold (k : Notice) (s : State) : (s.raise k).heatHold = s.heatHold := rfl
@[simp] theorem State.raise_activeRecipe (k : Notice) (s : State) : (s.raise k).activeRecipe = s.activeRecipe := rfl

/-! ### modEntry -/

@[simp] theorem State.modEntry_clock (d : Daylight) (f : Entry → Entry) (s : State) : (s.modEntry d f).clock = s.clock := rfl
@[simp] theorem State.modEntry_periods (d : Daylight) (f : Entry → Entry) (s : State) : (s.modEntry d f).periods = s.periods := rfl
@[simp] theorem State.modEntry_lines (d : Daylight) (f : Entry → Entry) (s : State) : (s.modEntry d f).lines = s.lines := rfl
@[simp] theorem State.modEntry_channels (d : Daylight) (f : Entry → Entry) (s : State) : (s.modEntry d f).channels = s.channels := rfl
@[simp] theorem State.modEntry_zones (d : Daylight) (f : Entry → Entry) (s : State) : (s.modEntry d f).zones = s.zones := rfl
@[simp] theorem State.modEntry_budget (d : Daylight) (f : Entry → Entry) (s : State) : (s.modEntry d f).budget = s.budget := rfl
@[simp] theorem State.modEntry_window (d : Daylight) (f : Entry → Entry) (s : State) : (s.modEntry d f).window = s.window := rfl
@[simp] theorem State.modEntry_trips (d : Daylight) (f : Entry → Entry) (s : State) : (s.modEntry d f).trips = s.trips := rfl
@[simp] theorem State.modEntry_cure (d : Daylight) (f : Entry → Entry) (s : State) : (s.modEntry d f).cure = s.cure := rfl
@[simp] theorem State.modEntry_weigh (d : Daylight) (f : Entry → Entry) (s : State) : (s.modEntry d f).weigh = s.weigh := rfl
@[simp] theorem State.modEntry_builder (d : Daylight) (f : Entry → Entry) (s : State) : (s.modEntry d f).builder = s.builder := rfl
@[simp] theorem State.modEntry_queue (d : Daylight) (f : Entry → Entry) (s : State) : (s.modEntry d f).queue = s.queue := rfl
@[simp] theorem State.modEntry_demould (d : Daylight) (f : Entry → Entry) (s : State) : (s.modEntry d f).demould = s.demould := rfl
@[simp] theorem State.modEntry_arbiter (d : Daylight) (f : Entry → Entry) (s : State) : (s.modEntry d f).arbiter = s.arbiter := rfl
@[simp] theorem State.modEntry_recipes (d : Daylight) (f : Entry → Entry) (s : State) : (s.modEntry d f).recipes = s.recipes := rfl
@[simp] theorem State.modEntry_commit (d : Daylight) (f : Entry → Entry) (s : State) : (s.modEntry d f).commit = s.commit := rfl
@[simp] theorem State.modEntry_history (d : Daylight) (f : Entry → Entry) (s : State) : (s.modEntry d f).history = s.history := rfl
@[simp] theorem State.modEntry_link (d : Daylight) (f : Entry → Entry) (s : State) : (s.modEntry d f).link = s.link := rfl
@[simp] theorem State.modEntry_flash (d : Daylight) (f : Entry → Entry) (s : State) : (s.modEntry d f).flash = s.flash := rfl
@[simp] theorem State.modEntry_ports (d : Daylight) (f : Entry → Entry) (s : State) : (s.modEntry d f).ports = s.ports := rfl
@[simp] theorem State.modEntry_nextOp (d : Daylight) (f : Entry → Entry) (s : State) : (s.modEntry d f).nextOp = s.nextOp := rfl
@[simp] theorem State.modEntry_free (d : Daylight) (f : Entry → Entry) (s : State) : (s.modEntry d f).free = s.free := rfl
@[simp] theorem State.modEntry_pending (d : Daylight) (f : Entry → Entry) (s : State) : (s.modEntry d f).pending = s.pending := rfl
@[simp] theorem State.modEntry_port (d : Daylight) (f : Entry → Entry) (s : State) (q : Port) : (s.modEntry d f).port q = s.port q := rfl
@[simp] theorem State.modEntry_ejector (d : Daylight) (f : Entry → Entry) (s : State) (e : Daylight) : (s.modEntry d f).ejector e = s.ejector e := rfl
@[simp] theorem State.modEntry_channel (d : Daylight) (f : Entry → Entry) (s : State) (y : Zone) : (s.modEntry d f).channel y = s.channel y := rfl
@[simp] theorem State.modEntry_zone (d : Daylight) (f : Entry → Entry) (s : State) (y : Zone) : (s.modEntry d f).zone y = s.zone y := rfl
@[simp] theorem State.modEntry_level (d : Daylight) (f : Entry → Entry) (s : State) (l' : Line) : (s.modEntry d f).level l' = s.level l' := rfl
@[simp] theorem State.modEntry_holds (d : Daylight) (f : Entry → Entry) (s : State) (e : Daylight) : (s.modEntry d f).holds e = s.holds e := rfl
@[simp] theorem State.modEntry_waits (d : Daylight) (f : Entry → Entry) (s : State) (e : Daylight) : (s.modEntry d f).waits e = s.waits e := rfl
@[simp] theorem State.modEntry_depth (d : Daylight) (f : Entry → Entry) (s : State) : (s.modEntry d f).depth = s.depth := rfl
@[simp] theorem State.modEntry_home (d : Daylight) (f : Entry → Entry) (s : State) (e : Daylight) : (s.modEntry d f).home e = s.home e := rfl
@[simp] theorem State.modEntry_fwd (d : Daylight) (f : Entry → Entry) (s : State) (e : Daylight) : (s.modEntry d f).fwd e = s.fwd e := rfl
@[simp] theorem State.modEntry_heatHold (d : Daylight) (f : Entry → Entry) (s : State) : (s.modEntry d f).heatHold = s.heatHold := rfl
@[simp] theorem State.modEntry_activeRecipe (d : Daylight) (f : Entry → Entry) (s : State) : (s.modEntry d f).activeRecipe = s.activeRecipe := rfl

/-! ### modShot -/

@[simp] theorem State.modShot_clock (d : Daylight) (f : Shot → Shot) (s : State) : (s.modShot d f).clock = s.clock := rfl
@[simp] theorem State.modShot_periods (d : Daylight) (f : Shot → Shot) (s : State) : (s.modShot d f).periods = s.periods := rfl
@[simp] theorem State.modShot_lines (d : Daylight) (f : Shot → Shot) (s : State) : (s.modShot d f).lines = s.lines := rfl
@[simp] theorem State.modShot_channels (d : Daylight) (f : Shot → Shot) (s : State) : (s.modShot d f).channels = s.channels := rfl
@[simp] theorem State.modShot_zones (d : Daylight) (f : Shot → Shot) (s : State) : (s.modShot d f).zones = s.zones := rfl
@[simp] theorem State.modShot_budget (d : Daylight) (f : Shot → Shot) (s : State) : (s.modShot d f).budget = s.budget := rfl
@[simp] theorem State.modShot_window (d : Daylight) (f : Shot → Shot) (s : State) : (s.modShot d f).window = s.window := rfl
@[simp] theorem State.modShot_trips (d : Daylight) (f : Shot → Shot) (s : State) : (s.modShot d f).trips = s.trips := rfl
@[simp] theorem State.modShot_cure (d : Daylight) (f : Shot → Shot) (s : State) : (s.modShot d f).cure = s.cure := rfl
@[simp] theorem State.modShot_weigh (d : Daylight) (f : Shot → Shot) (s : State) : (s.modShot d f).weigh = s.weigh := rfl
@[simp] theorem State.modShot_builder (d : Daylight) (f : Shot → Shot) (s : State) : (s.modShot d f).builder = s.builder := rfl
@[simp] theorem State.modShot_queue (d : Daylight) (f : Shot → Shot) (s : State) : (s.modShot d f).queue = s.queue := rfl
@[simp] theorem State.modShot_demould (d : Daylight) (f : Shot → Shot) (s : State) : (s.modShot d f).demould = s.demould := rfl
@[simp] theorem State.modShot_arbiter (d : Daylight) (f : Shot → Shot) (s : State) : (s.modShot d f).arbiter = s.arbiter := rfl
@[simp] theorem State.modShot_recipes (d : Daylight) (f : Shot → Shot) (s : State) : (s.modShot d f).recipes = s.recipes := rfl
@[simp] theorem State.modShot_commit (d : Daylight) (f : Shot → Shot) (s : State) : (s.modShot d f).commit = s.commit := rfl
@[simp] theorem State.modShot_history (d : Daylight) (f : Shot → Shot) (s : State) : (s.modShot d f).history = s.history := rfl
@[simp] theorem State.modShot_link (d : Daylight) (f : Shot → Shot) (s : State) : (s.modShot d f).link = s.link := rfl
@[simp] theorem State.modShot_flash (d : Daylight) (f : Shot → Shot) (s : State) : (s.modShot d f).flash = s.flash := rfl
@[simp] theorem State.modShot_ports (d : Daylight) (f : Shot → Shot) (s : State) : (s.modShot d f).ports = s.ports := rfl
@[simp] theorem State.modShot_nextOp (d : Daylight) (f : Shot → Shot) (s : State) : (s.modShot d f).nextOp = s.nextOp := rfl
@[simp] theorem State.modShot_free (d : Daylight) (f : Shot → Shot) (s : State) : (s.modShot d f).free = s.free := rfl
@[simp] theorem State.modShot_pending (d : Daylight) (f : Shot → Shot) (s : State) : (s.modShot d f).pending = s.pending := rfl
@[simp] theorem State.modShot_port (d : Daylight) (f : Shot → Shot) (s : State) (q : Port) : (s.modShot d f).port q = s.port q := rfl
@[simp] theorem State.modShot_ejector (d : Daylight) (f : Shot → Shot) (s : State) (e : Daylight) : (s.modShot d f).ejector e = s.ejector e := rfl
@[simp] theorem State.modShot_channel (d : Daylight) (f : Shot → Shot) (s : State) (y : Zone) : (s.modShot d f).channel y = s.channel y := rfl
@[simp] theorem State.modShot_zone (d : Daylight) (f : Shot → Shot) (s : State) (y : Zone) : (s.modShot d f).zone y = s.zone y := rfl
@[simp] theorem State.modShot_level (d : Daylight) (f : Shot → Shot) (s : State) (l' : Line) : (s.modShot d f).level l' = s.level l' := rfl
@[simp] theorem State.modShot_holds (d : Daylight) (f : Shot → Shot) (s : State) (e : Daylight) : (s.modShot d f).holds e = s.holds e := rfl
@[simp] theorem State.modShot_waits (d : Daylight) (f : Shot → Shot) (s : State) (e : Daylight) : (s.modShot d f).waits e = s.waits e := rfl
@[simp] theorem State.modShot_depth (d : Daylight) (f : Shot → Shot) (s : State) : (s.modShot d f).depth = s.depth := rfl
@[simp] theorem State.modShot_home (d : Daylight) (f : Shot → Shot) (s : State) (e : Daylight) : (s.modShot d f).home e = s.home e := rfl
@[simp] theorem State.modShot_fwd (d : Daylight) (f : Shot → Shot) (s : State) (e : Daylight) : (s.modShot d f).fwd e = s.fwd e := rfl
@[simp] theorem State.modShot_heatHold (d : Daylight) (f : Shot → Shot) (s : State) : (s.modShot d f).heatHold = s.heatHold := rfl
@[simp] theorem State.modShot_activeRecipe (d : Daylight) (f : Shot → Shot) (s : State) : (s.modShot d f).activeRecipe = s.activeRecipe := rfl

/-! ### enterState -/

@[simp] theorem State.enterState_clock (d : Daylight) (x : DaylightState) (s : State) : (s.enterState d x).clock = s.clock := rfl
@[simp] theorem State.enterState_periods (d : Daylight) (x : DaylightState) (s : State) : (s.enterState d x).periods = s.periods := rfl
@[simp] theorem State.enterState_lines (d : Daylight) (x : DaylightState) (s : State) : (s.enterState d x).lines = s.lines := rfl
@[simp] theorem State.enterState_channels (d : Daylight) (x : DaylightState) (s : State) : (s.enterState d x).channels = s.channels := rfl
@[simp] theorem State.enterState_zones (d : Daylight) (x : DaylightState) (s : State) : (s.enterState d x).zones = s.zones := rfl
@[simp] theorem State.enterState_budget (d : Daylight) (x : DaylightState) (s : State) : (s.enterState d x).budget = s.budget := rfl
@[simp] theorem State.enterState_window (d : Daylight) (x : DaylightState) (s : State) : (s.enterState d x).window = s.window := rfl
@[simp] theorem State.enterState_trips (d : Daylight) (x : DaylightState) (s : State) : (s.enterState d x).trips = s.trips := rfl
@[simp] theorem State.enterState_cure (d : Daylight) (x : DaylightState) (s : State) : (s.enterState d x).cure = s.cure := rfl
@[simp] theorem State.enterState_weigh (d : Daylight) (x : DaylightState) (s : State) : (s.enterState d x).weigh = s.weigh := rfl
@[simp] theorem State.enterState_builder (d : Daylight) (x : DaylightState) (s : State) : (s.enterState d x).builder = s.builder := rfl
@[simp] theorem State.enterState_queue (d : Daylight) (x : DaylightState) (s : State) : (s.enterState d x).queue = s.queue := rfl
@[simp] theorem State.enterState_demould (d : Daylight) (x : DaylightState) (s : State) : (s.enterState d x).demould = s.demould := rfl
@[simp] theorem State.enterState_arbiter (d : Daylight) (x : DaylightState) (s : State) : (s.enterState d x).arbiter = s.arbiter := rfl
@[simp] theorem State.enterState_recipes (d : Daylight) (x : DaylightState) (s : State) : (s.enterState d x).recipes = s.recipes := rfl
@[simp] theorem State.enterState_commit (d : Daylight) (x : DaylightState) (s : State) : (s.enterState d x).commit = s.commit := rfl
@[simp] theorem State.enterState_history (d : Daylight) (x : DaylightState) (s : State) : (s.enterState d x).history = s.history := rfl
@[simp] theorem State.enterState_link (d : Daylight) (x : DaylightState) (s : State) : (s.enterState d x).link = s.link := rfl
@[simp] theorem State.enterState_flash (d : Daylight) (x : DaylightState) (s : State) : (s.enterState d x).flash = s.flash := rfl
@[simp] theorem State.enterState_nextOp (d : Daylight) (x : DaylightState) (s : State) : (s.enterState d x).nextOp = s.nextOp := rfl
@[simp] theorem State.enterState_free (d : Daylight) (x : DaylightState) (s : State) : (s.enterState d x).free = s.free := rfl
@[simp] theorem State.enterState_pending (d : Daylight) (x : DaylightState) (s : State) : (s.enterState d x).pending = s.pending := rfl
@[simp] theorem State.enterState_ejector (d : Daylight) (x : DaylightState) (s : State) (e : Daylight) : (s.enterState d x).ejector e = s.ejector e := rfl
@[simp] theorem State.enterState_channel (d : Daylight) (x : DaylightState) (s : State) (y : Zone) : (s.enterState d x).channel y = s.channel y := rfl
@[simp] theorem State.enterState_zone (d : Daylight) (x : DaylightState) (s : State) (y : Zone) : (s.enterState d x).zone y = s.zone y := rfl
@[simp] theorem State.enterState_level (d : Daylight) (x : DaylightState) (s : State) (l' : Line) : (s.enterState d x).level l' = s.level l' := rfl
@[simp] theorem State.enterState_holds (d : Daylight) (x : DaylightState) (s : State) (e : Daylight) : (s.enterState d x).holds e = s.holds e := rfl
@[simp] theorem State.enterState_waits (d : Daylight) (x : DaylightState) (s : State) (e : Daylight) : (s.enterState d x).waits e = s.waits e := rfl
@[simp] theorem State.enterState_depth (d : Daylight) (x : DaylightState) (s : State) : (s.enterState d x).depth = s.depth := rfl
@[simp] theorem State.enterState_home (d : Daylight) (x : DaylightState) (s : State) (e : Daylight) : (s.enterState d x).home e = s.home e := rfl
@[simp] theorem State.enterState_fwd (d : Daylight) (x : DaylightState) (s : State) (e : Daylight) : (s.enterState d x).fwd e = s.fwd e := rfl
@[simp] theorem State.enterState_heatHold (d : Daylight) (x : DaylightState) (s : State) : (s.enterState d x).heatHold = s.heatHold := rfl
@[simp] theorem State.enterState_activeRecipe (d : Daylight) (x : DaylightState) (s : State) : (s.enterState d x).activeRecipe = s.activeRecipe := rfl

/-! ### endPermit -/

@[simp] theorem State.endPermit_clock (d : Daylight) (s : State) : (s.endPermit d).clock = s.clock := rfl
@[simp] theorem State.endPermit_periods (d : Daylight) (s : State) : (s.endPermit d).periods = s.periods := rfl
@[simp] theorem State.endPermit_lines (d : Daylight) (s : State) : (s.endPermit d).lines = s.lines := rfl
@[simp] theorem State.endPermit_channels (d : Daylight) (s : State) : (s.endPermit d).channels = s.channels := rfl
@[simp] theorem State.endPermit_zones (d : Daylight) (s : State) : (s.endPermit d).zones = s.zones := rfl
@[simp] theorem State.endPermit_budget (d : Daylight) (s : State) : (s.endPermit d).budget = s.budget := rfl
@[simp] theorem State.endPermit_window (d : Daylight) (s : State) : (s.endPermit d).window = s.window := rfl
@[simp] theorem State.endPermit_trips (d : Daylight) (s : State) : (s.endPermit d).trips = s.trips := rfl
@[simp] theorem State.endPermit_cure (d : Daylight) (s : State) : (s.endPermit d).cure = s.cure := rfl
@[simp] theorem State.endPermit_weigh (d : Daylight) (s : State) : (s.endPermit d).weigh = s.weigh := rfl
@[simp] theorem State.endPermit_builder (d : Daylight) (s : State) : (s.endPermit d).builder = s.builder := rfl
@[simp] theorem State.endPermit_queue (d : Daylight) (s : State) : (s.endPermit d).queue = s.queue := rfl
@[simp] theorem State.endPermit_demould (d : Daylight) (s : State) : (s.endPermit d).demould = s.demould := rfl
@[simp] theorem State.endPermit_arbiter (d : Daylight) (s : State) : (s.endPermit d).arbiter = s.arbiter := rfl
@[simp] theorem State.endPermit_recipes (d : Daylight) (s : State) : (s.endPermit d).recipes = s.recipes := rfl
@[simp] theorem State.endPermit_commit (d : Daylight) (s : State) : (s.endPermit d).commit = s.commit := rfl
@[simp] theorem State.endPermit_history (d : Daylight) (s : State) : (s.endPermit d).history = s.history := rfl
@[simp] theorem State.endPermit_link (d : Daylight) (s : State) : (s.endPermit d).link = s.link := rfl
@[simp] theorem State.endPermit_flash (d : Daylight) (s : State) : (s.endPermit d).flash = s.flash := rfl
@[simp] theorem State.endPermit_nextOp (d : Daylight) (s : State) : (s.endPermit d).nextOp = s.nextOp := rfl
@[simp] theorem State.endPermit_free (d : Daylight) (s : State) : (s.endPermit d).free = s.free := rfl
@[simp] theorem State.endPermit_pending (d : Daylight) (s : State) : (s.endPermit d).pending = s.pending := rfl
@[simp] theorem State.endPermit_ejector (d : Daylight) (s : State) (e : Daylight) : (s.endPermit d).ejector e = s.ejector e := rfl
@[simp] theorem State.endPermit_channel (d : Daylight) (s : State) (y : Zone) : (s.endPermit d).channel y = s.channel y := rfl
@[simp] theorem State.endPermit_zone (d : Daylight) (s : State) (y : Zone) : (s.endPermit d).zone y = s.zone y := rfl
@[simp] theorem State.endPermit_level (d : Daylight) (s : State) (l' : Line) : (s.endPermit d).level l' = s.level l' := rfl
@[simp] theorem State.endPermit_holds (d : Daylight) (s : State) (e : Daylight) : (s.endPermit d).holds e = s.holds e := rfl
@[simp] theorem State.endPermit_waits (d : Daylight) (s : State) (e : Daylight) : (s.endPermit d).waits e = s.waits e := rfl
@[simp] theorem State.endPermit_depth (d : Daylight) (s : State) : (s.endPermit d).depth = s.depth := rfl
@[simp] theorem State.endPermit_home (d : Daylight) (s : State) (e : Daylight) : (s.endPermit d).home e = s.home e := rfl
@[simp] theorem State.endPermit_fwd (d : Daylight) (s : State) (e : Daylight) : (s.endPermit d).fwd e = s.fwd e := rfl
@[simp] theorem State.endPermit_heatHold (d : Daylight) (s : State) : (s.endPermit d).heatHold = s.heatHold := rfl
@[simp] theorem State.endPermit_activeRecipe (d : Daylight) (s : State) : (s.endPermit d).activeRecipe = s.activeRecipe := rfl

/-! ### modEjector -/

@[simp] theorem State.modEjector_clock (d : Daylight) (f : Ejector → Ejector) (s : State) : (s.modEjector d f).clock = s.clock := rfl
@[simp] theorem State.modEjector_periods (d : Daylight) (f : Ejector → Ejector) (s : State) : (s.modEjector d f).periods = s.periods := rfl
@[simp] theorem State.modEjector_lines (d : Daylight) (f : Ejector → Ejector) (s : State) : (s.modEjector d f).lines = s.lines := rfl
@[simp] theorem State.modEjector_channels (d : Daylight) (f : Ejector → Ejector) (s : State) : (s.modEjector d f).channels = s.channels := rfl
@[simp] theorem State.modEjector_zones (d : Daylight) (f : Ejector → Ejector) (s : State) : (s.modEjector d f).zones = s.zones := rfl
@[simp] theorem State.modEjector_budget (d : Daylight) (f : Ejector → Ejector) (s : State) : (s.modEjector d f).budget = s.budget := rfl
@[simp] theorem State.modEjector_window (d : Daylight) (f : Ejector → Ejector) (s : State) : (s.modEjector d f).window = s.window := rfl
@[simp] theorem State.modEjector_trips (d : Daylight) (f : Ejector → Ejector) (s : State) : (s.modEjector d f).trips = s.trips := rfl
@[simp] theorem State.modEjector_cure (d : Daylight) (f : Ejector → Ejector) (s : State) : (s.modEjector d f).cure = s.cure := rfl
@[simp] theorem State.modEjector_weigh (d : Daylight) (f : Ejector → Ejector) (s : State) : (s.modEjector d f).weigh = s.weigh := rfl
@[simp] theorem State.modEjector_builder (d : Daylight) (f : Ejector → Ejector) (s : State) : (s.modEjector d f).builder = s.builder := rfl
@[simp] theorem State.modEjector_queue (d : Daylight) (f : Ejector → Ejector) (s : State) : (s.modEjector d f).queue = s.queue := rfl
@[simp] theorem State.modEjector_board (d : Daylight) (f : Ejector → Ejector) (s : State) : (s.modEjector d f).board = s.board := rfl
@[simp] theorem State.modEjector_arbiter (d : Daylight) (f : Ejector → Ejector) (s : State) : (s.modEjector d f).arbiter = s.arbiter := rfl
@[simp] theorem State.modEjector_recipes (d : Daylight) (f : Ejector → Ejector) (s : State) : (s.modEjector d f).recipes = s.recipes := rfl
@[simp] theorem State.modEjector_commit (d : Daylight) (f : Ejector → Ejector) (s : State) : (s.modEjector d f).commit = s.commit := rfl
@[simp] theorem State.modEjector_history (d : Daylight) (f : Ejector → Ejector) (s : State) : (s.modEjector d f).history = s.history := rfl
@[simp] theorem State.modEjector_link (d : Daylight) (f : Ejector → Ejector) (s : State) : (s.modEjector d f).link = s.link := rfl
@[simp] theorem State.modEjector_flash (d : Daylight) (f : Ejector → Ejector) (s : State) : (s.modEjector d f).flash = s.flash := rfl
@[simp] theorem State.modEjector_ports (d : Daylight) (f : Ejector → Ejector) (s : State) : (s.modEjector d f).ports = s.ports := rfl
@[simp] theorem State.modEjector_nextOp (d : Daylight) (f : Ejector → Ejector) (s : State) : (s.modEjector d f).nextOp = s.nextOp := rfl
@[simp] theorem State.modEjector_free (d : Daylight) (f : Ejector → Ejector) (s : State) : (s.modEjector d f).free = s.free := rfl
@[simp] theorem State.modEjector_pending (d : Daylight) (f : Ejector → Ejector) (s : State) : (s.modEjector d f).pending = s.pending := rfl
@[simp] theorem State.modEjector_port (d : Daylight) (f : Ejector → Ejector) (s : State) (q : Port) : (s.modEjector d f).port q = s.port q := rfl
@[simp] theorem State.modEjector_entry (d : Daylight) (f : Ejector → Ejector) (s : State) (e : Daylight) : (s.modEjector d f).entry e = s.entry e := rfl
@[simp] theorem State.modEjector_channel (d : Daylight) (f : Ejector → Ejector) (s : State) (y : Zone) : (s.modEjector d f).channel y = s.channel y := rfl
@[simp] theorem State.modEjector_zone (d : Daylight) (f : Ejector → Ejector) (s : State) (y : Zone) : (s.modEjector d f).zone y = s.zone y := rfl
@[simp] theorem State.modEjector_level (d : Daylight) (f : Ejector → Ejector) (s : State) (l' : Line) : (s.modEjector d f).level l' = s.level l' := rfl
@[simp] theorem State.modEjector_holds (d : Daylight) (f : Ejector → Ejector) (s : State) (e : Daylight) : (s.modEjector d f).holds e = s.holds e := rfl
@[simp] theorem State.modEjector_waits (d : Daylight) (f : Ejector → Ejector) (s : State) (e : Daylight) : (s.modEjector d f).waits e = s.waits e := rfl
@[simp] theorem State.modEjector_depth (d : Daylight) (f : Ejector → Ejector) (s : State) : (s.modEjector d f).depth = s.depth := rfl
@[simp] theorem State.modEjector_home (d : Daylight) (f : Ejector → Ejector) (s : State) (e : Daylight) : (s.modEjector d f).home e = s.home e := rfl
@[simp] theorem State.modEjector_fwd (d : Daylight) (f : Ejector → Ejector) (s : State) (e : Daylight) : (s.modEjector d f).fwd e = s.fwd e := rfl
@[simp] theorem State.modEjector_heatHold (d : Daylight) (f : Ejector → Ejector) (s : State) : (s.modEjector d f).heatHold = s.heatHold := rfl
@[simp] theorem State.modEjector_activeRecipe (d : Daylight) (f : Ejector → Ejector) (s : State) : (s.modEjector d f).activeRecipe = s.activeRecipe := rfl

/-! ### setFailed -/

@[simp] theorem State.setFailed_clock (d : Daylight) (b : Bool) (s : State) : (s.setFailed d b).clock = s.clock := rfl
@[simp] theorem State.setFailed_periods (d : Daylight) (b : Bool) (s : State) : (s.setFailed d b).periods = s.periods := rfl
@[simp] theorem State.setFailed_lines (d : Daylight) (b : Bool) (s : State) : (s.setFailed d b).lines = s.lines := rfl
@[simp] theorem State.setFailed_channels (d : Daylight) (b : Bool) (s : State) : (s.setFailed d b).channels = s.channels := rfl
@[simp] theorem State.setFailed_zones (d : Daylight) (b : Bool) (s : State) : (s.setFailed d b).zones = s.zones := rfl
@[simp] theorem State.setFailed_budget (d : Daylight) (b : Bool) (s : State) : (s.setFailed d b).budget = s.budget := rfl
@[simp] theorem State.setFailed_window (d : Daylight) (b : Bool) (s : State) : (s.setFailed d b).window = s.window := rfl
@[simp] theorem State.setFailed_trips (d : Daylight) (b : Bool) (s : State) : (s.setFailed d b).trips = s.trips := rfl
@[simp] theorem State.setFailed_cure (d : Daylight) (b : Bool) (s : State) : (s.setFailed d b).cure = s.cure := rfl
@[simp] theorem State.setFailed_weigh (d : Daylight) (b : Bool) (s : State) : (s.setFailed d b).weigh = s.weigh := rfl
@[simp] theorem State.setFailed_builder (d : Daylight) (b : Bool) (s : State) : (s.setFailed d b).builder = s.builder := rfl
@[simp] theorem State.setFailed_queue (d : Daylight) (b : Bool) (s : State) : (s.setFailed d b).queue = s.queue := rfl
@[simp] theorem State.setFailed_arbiter (d : Daylight) (b : Bool) (s : State) : (s.setFailed d b).arbiter = s.arbiter := rfl
@[simp] theorem State.setFailed_recipes (d : Daylight) (b : Bool) (s : State) : (s.setFailed d b).recipes = s.recipes := rfl
@[simp] theorem State.setFailed_commit (d : Daylight) (b : Bool) (s : State) : (s.setFailed d b).commit = s.commit := rfl
@[simp] theorem State.setFailed_history (d : Daylight) (b : Bool) (s : State) : (s.setFailed d b).history = s.history := rfl
@[simp] theorem State.setFailed_link (d : Daylight) (b : Bool) (s : State) : (s.setFailed d b).link = s.link := rfl
@[simp] theorem State.setFailed_flash (d : Daylight) (b : Bool) (s : State) : (s.setFailed d b).flash = s.flash := rfl
@[simp] theorem State.setFailed_ports (d : Daylight) (b : Bool) (s : State) : (s.setFailed d b).ports = s.ports := rfl
@[simp] theorem State.setFailed_nextOp (d : Daylight) (b : Bool) (s : State) : (s.setFailed d b).nextOp = s.nextOp := rfl
@[simp] theorem State.setFailed_free (d : Daylight) (b : Bool) (s : State) : (s.setFailed d b).free = s.free := rfl
@[simp] theorem State.setFailed_pending (d : Daylight) (b : Bool) (s : State) : (s.setFailed d b).pending = s.pending := rfl
@[simp] theorem State.setFailed_port (d : Daylight) (b : Bool) (s : State) (q : Port) : (s.setFailed d b).port q = s.port q := rfl
@[simp] theorem State.setFailed_channel (d : Daylight) (b : Bool) (s : State) (y : Zone) : (s.setFailed d b).channel y = s.channel y := rfl
@[simp] theorem State.setFailed_zone (d : Daylight) (b : Bool) (s : State) (y : Zone) : (s.setFailed d b).zone y = s.zone y := rfl
@[simp] theorem State.setFailed_level (d : Daylight) (b : Bool) (s : State) (l' : Line) : (s.setFailed d b).level l' = s.level l' := rfl
@[simp] theorem State.setFailed_holds (d : Daylight) (b : Bool) (s : State) (e : Daylight) : (s.setFailed d b).holds e = s.holds e := rfl
@[simp] theorem State.setFailed_waits (d : Daylight) (b : Bool) (s : State) (e : Daylight) : (s.setFailed d b).waits e = s.waits e := rfl
@[simp] theorem State.setFailed_depth (d : Daylight) (b : Bool) (s : State) : (s.setFailed d b).depth = s.depth := rfl
@[simp] theorem State.setFailed_home (d : Daylight) (b : Bool) (s : State) (e : Daylight) : (s.setFailed d b).home e = s.home e := rfl
@[simp] theorem State.setFailed_fwd (d : Daylight) (b : Bool) (s : State) (e : Daylight) : (s.setFailed d b).fwd e = s.fwd e := rfl
@[simp] theorem State.setFailed_heatHold (d : Daylight) (b : Bool) (s : State) : (s.setFailed d b).heatHold = s.heatHold := rfl
@[simp] theorem State.setFailed_activeRecipe (d : Daylight) (b : Bool) (s : State) : (s.setFailed d b).activeRecipe = s.activeRecipe := rfl

/-! ### setHolder -/

@[simp] theorem State.setHolder_clock (d : Daylight) (b : Bool) (s : State) : (s.setHolder d b).clock = s.clock := rfl
@[simp] theorem State.setHolder_periods (d : Daylight) (b : Bool) (s : State) : (s.setHolder d b).periods = s.periods := rfl
@[simp] theorem State.setHolder_lines (d : Daylight) (b : Bool) (s : State) : (s.setHolder d b).lines = s.lines := rfl
@[simp] theorem State.setHolder_channels (d : Daylight) (b : Bool) (s : State) : (s.setHolder d b).channels = s.channels := rfl
@[simp] theorem State.setHolder_zones (d : Daylight) (b : Bool) (s : State) : (s.setHolder d b).zones = s.zones := rfl
@[simp] theorem State.setHolder_budget (d : Daylight) (b : Bool) (s : State) : (s.setHolder d b).budget = s.budget := rfl
@[simp] theorem State.setHolder_window (d : Daylight) (b : Bool) (s : State) : (s.setHolder d b).window = s.window := rfl
@[simp] theorem State.setHolder_trips (d : Daylight) (b : Bool) (s : State) : (s.setHolder d b).trips = s.trips := rfl
@[simp] theorem State.setHolder_cure (d : Daylight) (b : Bool) (s : State) : (s.setHolder d b).cure = s.cure := rfl
@[simp] theorem State.setHolder_weigh (d : Daylight) (b : Bool) (s : State) : (s.setHolder d b).weigh = s.weigh := rfl
@[simp] theorem State.setHolder_builder (d : Daylight) (b : Bool) (s : State) : (s.setHolder d b).builder = s.builder := rfl
@[simp] theorem State.setHolder_queue (d : Daylight) (b : Bool) (s : State) : (s.setHolder d b).queue = s.queue := rfl
@[simp] theorem State.setHolder_board (d : Daylight) (b : Bool) (s : State) : (s.setHolder d b).board = s.board := rfl
@[simp] theorem State.setHolder_demould (d : Daylight) (b : Bool) (s : State) : (s.setHolder d b).demould = s.demould := rfl
@[simp] theorem State.setHolder_recipes (d : Daylight) (b : Bool) (s : State) : (s.setHolder d b).recipes = s.recipes := rfl
@[simp] theorem State.setHolder_commit (d : Daylight) (b : Bool) (s : State) : (s.setHolder d b).commit = s.commit := rfl
@[simp] theorem State.setHolder_history (d : Daylight) (b : Bool) (s : State) : (s.setHolder d b).history = s.history := rfl
@[simp] theorem State.setHolder_link (d : Daylight) (b : Bool) (s : State) : (s.setHolder d b).link = s.link := rfl
@[simp] theorem State.setHolder_flash (d : Daylight) (b : Bool) (s : State) : (s.setHolder d b).flash = s.flash := rfl
@[simp] theorem State.setHolder_ports (d : Daylight) (b : Bool) (s : State) : (s.setHolder d b).ports = s.ports := rfl
@[simp] theorem State.setHolder_nextOp (d : Daylight) (b : Bool) (s : State) : (s.setHolder d b).nextOp = s.nextOp := rfl
@[simp] theorem State.setHolder_free (d : Daylight) (b : Bool) (s : State) : (s.setHolder d b).free = s.free := rfl
@[simp] theorem State.setHolder_pending (d : Daylight) (b : Bool) (s : State) : (s.setHolder d b).pending = s.pending := rfl
@[simp] theorem State.setHolder_port (d : Daylight) (b : Bool) (s : State) (q : Port) : (s.setHolder d b).port q = s.port q := rfl
@[simp] theorem State.setHolder_entry (d : Daylight) (b : Bool) (s : State) (e : Daylight) : (s.setHolder d b).entry e = s.entry e := rfl
@[simp] theorem State.setHolder_ejector (d : Daylight) (b : Bool) (s : State) (e : Daylight) : (s.setHolder d b).ejector e = s.ejector e := rfl
@[simp] theorem State.setHolder_channel (d : Daylight) (b : Bool) (s : State) (y : Zone) : (s.setHolder d b).channel y = s.channel y := rfl
@[simp] theorem State.setHolder_zone (d : Daylight) (b : Bool) (s : State) (y : Zone) : (s.setHolder d b).zone y = s.zone y := rfl
@[simp] theorem State.setHolder_level (d : Daylight) (b : Bool) (s : State) (l' : Line) : (s.setHolder d b).level l' = s.level l' := rfl
@[simp] theorem State.setHolder_depth (d : Daylight) (b : Bool) (s : State) : (s.setHolder d b).depth = s.depth := rfl
@[simp] theorem State.setHolder_home (d : Daylight) (b : Bool) (s : State) (e : Daylight) : (s.setHolder d b).home e = s.home e := rfl
@[simp] theorem State.setHolder_fwd (d : Daylight) (b : Bool) (s : State) (e : Daylight) : (s.setHolder d b).fwd e = s.fwd e := rfl
@[simp] theorem State.setHolder_heatHold (d : Daylight) (b : Bool) (s : State) : (s.setHolder d b).heatHold = s.heatHold := rfl
@[simp] theorem State.setHolder_activeRecipe (d : Daylight) (b : Bool) (s : State) : (s.setHolder d b).activeRecipe = s.activeRecipe := rfl

/-! ### setWaiting -/

@[simp] theorem State.setWaiting_clock (d : Daylight) (b : Bool) (s : State) : (s.setWaiting d b).clock = s.clock := rfl
@[simp] theorem State.setWaiting_periods (d : Daylight) (b : Bool) (s : State) : (s.setWaiting d b).periods = s.periods := rfl
@[simp] theorem State.setWaiting_lines (d : Daylight) (b : Bool) (s : State) : (s.setWaiting d b).lines = s.lines := rfl
@[simp] theorem State.setWaiting_channels (d : Daylight) (b : Bool) (s : State) : (s.setWaiting d b).channels = s.channels := rfl
@[simp] theorem State.setWaiting_zones (d : Daylight) (b : Bool) (s : State) : (s.setWaiting d b).zones = s.zones := rfl
@[simp] theorem State.setWaiting_budget (d : Daylight) (b : Bool) (s : State) : (s.setWaiting d b).budget = s.budget := rfl
@[simp] theorem State.setWaiting_window (d : Daylight) (b : Bool) (s : State) : (s.setWaiting d b).window = s.window := rfl
@[simp] theorem State.setWaiting_trips (d : Daylight) (b : Bool) (s : State) : (s.setWaiting d b).trips = s.trips := rfl
@[simp] theorem State.setWaiting_cure (d : Daylight) (b : Bool) (s : State) : (s.setWaiting d b).cure = s.cure := rfl
@[simp] theorem State.setWaiting_weigh (d : Daylight) (b : Bool) (s : State) : (s.setWaiting d b).weigh = s.weigh := rfl
@[simp] theorem State.setWaiting_builder (d : Daylight) (b : Bool) (s : State) : (s.setWaiting d b).builder = s.builder := rfl
@[simp] theorem State.setWaiting_queue (d : Daylight) (b : Bool) (s : State) : (s.setWaiting d b).queue = s.queue := rfl
@[simp] theorem State.setWaiting_board (d : Daylight) (b : Bool) (s : State) : (s.setWaiting d b).board = s.board := rfl
@[simp] theorem State.setWaiting_demould (d : Daylight) (b : Bool) (s : State) : (s.setWaiting d b).demould = s.demould := rfl
@[simp] theorem State.setWaiting_recipes (d : Daylight) (b : Bool) (s : State) : (s.setWaiting d b).recipes = s.recipes := rfl
@[simp] theorem State.setWaiting_commit (d : Daylight) (b : Bool) (s : State) : (s.setWaiting d b).commit = s.commit := rfl
@[simp] theorem State.setWaiting_history (d : Daylight) (b : Bool) (s : State) : (s.setWaiting d b).history = s.history := rfl
@[simp] theorem State.setWaiting_link (d : Daylight) (b : Bool) (s : State) : (s.setWaiting d b).link = s.link := rfl
@[simp] theorem State.setWaiting_flash (d : Daylight) (b : Bool) (s : State) : (s.setWaiting d b).flash = s.flash := rfl
@[simp] theorem State.setWaiting_ports (d : Daylight) (b : Bool) (s : State) : (s.setWaiting d b).ports = s.ports := rfl
@[simp] theorem State.setWaiting_nextOp (d : Daylight) (b : Bool) (s : State) : (s.setWaiting d b).nextOp = s.nextOp := rfl
@[simp] theorem State.setWaiting_free (d : Daylight) (b : Bool) (s : State) : (s.setWaiting d b).free = s.free := rfl
@[simp] theorem State.setWaiting_pending (d : Daylight) (b : Bool) (s : State) : (s.setWaiting d b).pending = s.pending := rfl
@[simp] theorem State.setWaiting_port (d : Daylight) (b : Bool) (s : State) (q : Port) : (s.setWaiting d b).port q = s.port q := rfl
@[simp] theorem State.setWaiting_entry (d : Daylight) (b : Bool) (s : State) (e : Daylight) : (s.setWaiting d b).entry e = s.entry e := rfl
@[simp] theorem State.setWaiting_ejector (d : Daylight) (b : Bool) (s : State) (e : Daylight) : (s.setWaiting d b).ejector e = s.ejector e := rfl
@[simp] theorem State.setWaiting_channel (d : Daylight) (b : Bool) (s : State) (y : Zone) : (s.setWaiting d b).channel y = s.channel y := rfl
@[simp] theorem State.setWaiting_zone (d : Daylight) (b : Bool) (s : State) (y : Zone) : (s.setWaiting d b).zone y = s.zone y := rfl
@[simp] theorem State.setWaiting_level (d : Daylight) (b : Bool) (s : State) (l' : Line) : (s.setWaiting d b).level l' = s.level l' := rfl
@[simp] theorem State.setWaiting_depth (d : Daylight) (b : Bool) (s : State) : (s.setWaiting d b).depth = s.depth := rfl
@[simp] theorem State.setWaiting_home (d : Daylight) (b : Bool) (s : State) (e : Daylight) : (s.setWaiting d b).home e = s.home e := rfl
@[simp] theorem State.setWaiting_fwd (d : Daylight) (b : Bool) (s : State) (e : Daylight) : (s.setWaiting d b).fwd e = s.fwd e := rfl
@[simp] theorem State.setWaiting_heatHold (d : Daylight) (b : Bool) (s : State) : (s.setWaiting d b).heatHold = s.heatHold := rfl
@[simp] theorem State.setWaiting_activeRecipe (d : Daylight) (b : Bool) (s : State) : (s.setWaiting d b).activeRecipe = s.activeRecipe := rfl

/-! ### modChannel -/

@[simp] theorem State.modChannel_clock (z : Zone) (f : Channel → Channel) (s : State) : (s.modChannel z f).clock = s.clock := rfl
@[simp] theorem State.modChannel_periods (z : Zone) (f : Channel → Channel) (s : State) : (s.modChannel z f).periods = s.periods := rfl
@[simp] theorem State.modChannel_lines (z : Zone) (f : Channel → Channel) (s : State) : (s.modChannel z f).lines = s.lines := rfl
@[simp] theorem State.modChannel_zones (z : Zone) (f : Channel → Channel) (s : State) : (s.modChannel z f).zones = s.zones := rfl
@[simp] theorem State.modChannel_budget (z : Zone) (f : Channel → Channel) (s : State) : (s.modChannel z f).budget = s.budget := rfl
@[simp] theorem State.modChannel_window (z : Zone) (f : Channel → Channel) (s : State) : (s.modChannel z f).window = s.window := rfl
@[simp] theorem State.modChannel_trips (z : Zone) (f : Channel → Channel) (s : State) : (s.modChannel z f).trips = s.trips := rfl
@[simp] theorem State.modChannel_cure (z : Zone) (f : Channel → Channel) (s : State) : (s.modChannel z f).cure = s.cure := rfl
@[simp] theorem State.modChannel_weigh (z : Zone) (f : Channel → Channel) (s : State) : (s.modChannel z f).weigh = s.weigh := rfl
@[simp] theorem State.modChannel_builder (z : Zone) (f : Channel → Channel) (s : State) : (s.modChannel z f).builder = s.builder := rfl
@[simp] theorem State.modChannel_queue (z : Zone) (f : Channel → Channel) (s : State) : (s.modChannel z f).queue = s.queue := rfl
@[simp] theorem State.modChannel_board (z : Zone) (f : Channel → Channel) (s : State) : (s.modChannel z f).board = s.board := rfl
@[simp] theorem State.modChannel_demould (z : Zone) (f : Channel → Channel) (s : State) : (s.modChannel z f).demould = s.demould := rfl
@[simp] theorem State.modChannel_arbiter (z : Zone) (f : Channel → Channel) (s : State) : (s.modChannel z f).arbiter = s.arbiter := rfl
@[simp] theorem State.modChannel_recipes (z : Zone) (f : Channel → Channel) (s : State) : (s.modChannel z f).recipes = s.recipes := rfl
@[simp] theorem State.modChannel_commit (z : Zone) (f : Channel → Channel) (s : State) : (s.modChannel z f).commit = s.commit := rfl
@[simp] theorem State.modChannel_history (z : Zone) (f : Channel → Channel) (s : State) : (s.modChannel z f).history = s.history := rfl
@[simp] theorem State.modChannel_link (z : Zone) (f : Channel → Channel) (s : State) : (s.modChannel z f).link = s.link := rfl
@[simp] theorem State.modChannel_flash (z : Zone) (f : Channel → Channel) (s : State) : (s.modChannel z f).flash = s.flash := rfl
@[simp] theorem State.modChannel_ports (z : Zone) (f : Channel → Channel) (s : State) : (s.modChannel z f).ports = s.ports := rfl
@[simp] theorem State.modChannel_nextOp (z : Zone) (f : Channel → Channel) (s : State) : (s.modChannel z f).nextOp = s.nextOp := rfl
@[simp] theorem State.modChannel_free (z : Zone) (f : Channel → Channel) (s : State) : (s.modChannel z f).free = s.free := rfl
@[simp] theorem State.modChannel_pending (z : Zone) (f : Channel → Channel) (s : State) : (s.modChannel z f).pending = s.pending := rfl

/-! ### modZone -/

@[simp] theorem State.modZone_clock (z : Zone) (f : ZoneControl → ZoneControl) (s : State) : (s.modZone z f).clock = s.clock := rfl
@[simp] theorem State.modZone_periods (z : Zone) (f : ZoneControl → ZoneControl) (s : State) : (s.modZone z f).periods = s.periods := rfl
@[simp] theorem State.modZone_lines (z : Zone) (f : ZoneControl → ZoneControl) (s : State) : (s.modZone z f).lines = s.lines := rfl
@[simp] theorem State.modZone_channels (z : Zone) (f : ZoneControl → ZoneControl) (s : State) : (s.modZone z f).channels = s.channels := rfl
@[simp] theorem State.modZone_budget (z : Zone) (f : ZoneControl → ZoneControl) (s : State) : (s.modZone z f).budget = s.budget := rfl
@[simp] theorem State.modZone_window (z : Zone) (f : ZoneControl → ZoneControl) (s : State) : (s.modZone z f).window = s.window := rfl
@[simp] theorem State.modZone_trips (z : Zone) (f : ZoneControl → ZoneControl) (s : State) : (s.modZone z f).trips = s.trips := rfl
@[simp] theorem State.modZone_cure (z : Zone) (f : ZoneControl → ZoneControl) (s : State) : (s.modZone z f).cure = s.cure := rfl
@[simp] theorem State.modZone_weigh (z : Zone) (f : ZoneControl → ZoneControl) (s : State) : (s.modZone z f).weigh = s.weigh := rfl
@[simp] theorem State.modZone_builder (z : Zone) (f : ZoneControl → ZoneControl) (s : State) : (s.modZone z f).builder = s.builder := rfl
@[simp] theorem State.modZone_queue (z : Zone) (f : ZoneControl → ZoneControl) (s : State) : (s.modZone z f).queue = s.queue := rfl
@[simp] theorem State.modZone_board (z : Zone) (f : ZoneControl → ZoneControl) (s : State) : (s.modZone z f).board = s.board := rfl
@[simp] theorem State.modZone_demould (z : Zone) (f : ZoneControl → ZoneControl) (s : State) : (s.modZone z f).demould = s.demould := rfl
@[simp] theorem State.modZone_arbiter (z : Zone) (f : ZoneControl → ZoneControl) (s : State) : (s.modZone z f).arbiter = s.arbiter := rfl
@[simp] theorem State.modZone_recipes (z : Zone) (f : ZoneControl → ZoneControl) (s : State) : (s.modZone z f).recipes = s.recipes := rfl
@[simp] theorem State.modZone_commit (z : Zone) (f : ZoneControl → ZoneControl) (s : State) : (s.modZone z f).commit = s.commit := rfl
@[simp] theorem State.modZone_history (z : Zone) (f : ZoneControl → ZoneControl) (s : State) : (s.modZone z f).history = s.history := rfl
@[simp] theorem State.modZone_link (z : Zone) (f : ZoneControl → ZoneControl) (s : State) : (s.modZone z f).link = s.link := rfl
@[simp] theorem State.modZone_flash (z : Zone) (f : ZoneControl → ZoneControl) (s : State) : (s.modZone z f).flash = s.flash := rfl
@[simp] theorem State.modZone_ports (z : Zone) (f : ZoneControl → ZoneControl) (s : State) : (s.modZone z f).ports = s.ports := rfl
@[simp] theorem State.modZone_nextOp (z : Zone) (f : ZoneControl → ZoneControl) (s : State) : (s.modZone z f).nextOp = s.nextOp := rfl
@[simp] theorem State.modZone_free (z : Zone) (f : ZoneControl → ZoneControl) (s : State) : (s.modZone z f).free = s.free := rfl
@[simp] theorem State.modZone_pending (z : Zone) (f : ZoneControl → ZoneControl) (s : State) : (s.modZone z f).pending = s.pending := rfl

/-! ### modTrip -/

@[simp] theorem State.modTrip_clock (z : Zone) (src : Source) (f : Trip → Trip) (s : State) : (s.modTrip z src f).clock = s.clock := rfl
@[simp] theorem State.modTrip_periods (z : Zone) (src : Source) (f : Trip → Trip) (s : State) : (s.modTrip z src f).periods = s.periods := rfl
@[simp] theorem State.modTrip_lines (z : Zone) (src : Source) (f : Trip → Trip) (s : State) : (s.modTrip z src f).lines = s.lines := rfl
@[simp] theorem State.modTrip_channels (z : Zone) (src : Source) (f : Trip → Trip) (s : State) : (s.modTrip z src f).channels = s.channels := rfl
@[simp] theorem State.modTrip_zones (z : Zone) (src : Source) (f : Trip → Trip) (s : State) : (s.modTrip z src f).zones = s.zones := rfl
@[simp] theorem State.modTrip_budget (z : Zone) (src : Source) (f : Trip → Trip) (s : State) : (s.modTrip z src f).budget = s.budget := rfl
@[simp] theorem State.modTrip_window (z : Zone) (src : Source) (f : Trip → Trip) (s : State) : (s.modTrip z src f).window = s.window := rfl
@[simp] theorem State.modTrip_cure (z : Zone) (src : Source) (f : Trip → Trip) (s : State) : (s.modTrip z src f).cure = s.cure := rfl
@[simp] theorem State.modTrip_weigh (z : Zone) (src : Source) (f : Trip → Trip) (s : State) : (s.modTrip z src f).weigh = s.weigh := rfl
@[simp] theorem State.modTrip_builder (z : Zone) (src : Source) (f : Trip → Trip) (s : State) : (s.modTrip z src f).builder = s.builder := rfl
@[simp] theorem State.modTrip_queue (z : Zone) (src : Source) (f : Trip → Trip) (s : State) : (s.modTrip z src f).queue = s.queue := rfl
@[simp] theorem State.modTrip_board (z : Zone) (src : Source) (f : Trip → Trip) (s : State) : (s.modTrip z src f).board = s.board := rfl
@[simp] theorem State.modTrip_demould (z : Zone) (src : Source) (f : Trip → Trip) (s : State) : (s.modTrip z src f).demould = s.demould := rfl
@[simp] theorem State.modTrip_arbiter (z : Zone) (src : Source) (f : Trip → Trip) (s : State) : (s.modTrip z src f).arbiter = s.arbiter := rfl
@[simp] theorem State.modTrip_recipes (z : Zone) (src : Source) (f : Trip → Trip) (s : State) : (s.modTrip z src f).recipes = s.recipes := rfl
@[simp] theorem State.modTrip_commit (z : Zone) (src : Source) (f : Trip → Trip) (s : State) : (s.modTrip z src f).commit = s.commit := rfl
@[simp] theorem State.modTrip_history (z : Zone) (src : Source) (f : Trip → Trip) (s : State) : (s.modTrip z src f).history = s.history := rfl
@[simp] theorem State.modTrip_link (z : Zone) (src : Source) (f : Trip → Trip) (s : State) : (s.modTrip z src f).link = s.link := rfl
@[simp] theorem State.modTrip_flash (z : Zone) (src : Source) (f : Trip → Trip) (s : State) : (s.modTrip z src f).flash = s.flash := rfl
@[simp] theorem State.modTrip_ports (z : Zone) (src : Source) (f : Trip → Trip) (s : State) : (s.modTrip z src f).ports = s.ports := rfl
@[simp] theorem State.modTrip_nextOp (z : Zone) (src : Source) (f : Trip → Trip) (s : State) : (s.modTrip z src f).nextOp = s.nextOp := rfl
@[simp] theorem State.modTrip_free (z : Zone) (src : Source) (f : Trip → Trip) (s : State) : (s.modTrip z src f).free = s.free := rfl
@[simp] theorem State.modTrip_pending (z : Zone) (src : Source) (f : Trip → Trip) (s : State) : (s.modTrip z src f).pending = s.pending := rfl

/-! ### modSlot -/

@[simp] theorem State.modSlot_clock (k : RecipeSlot) (f : SlotContent → SlotContent) (s : State) : (s.modSlot k f).clock = s.clock := rfl
@[simp] theorem State.modSlot_periods (k : RecipeSlot) (f : SlotContent → SlotContent) (s : State) : (s.modSlot k f).periods = s.periods := rfl
@[simp] theorem State.modSlot_lines (k : RecipeSlot) (f : SlotContent → SlotContent) (s : State) : (s.modSlot k f).lines = s.lines := rfl
@[simp] theorem State.modSlot_channels (k : RecipeSlot) (f : SlotContent → SlotContent) (s : State) : (s.modSlot k f).channels = s.channels := rfl
@[simp] theorem State.modSlot_zones (k : RecipeSlot) (f : SlotContent → SlotContent) (s : State) : (s.modSlot k f).zones = s.zones := rfl
@[simp] theorem State.modSlot_budget (k : RecipeSlot) (f : SlotContent → SlotContent) (s : State) : (s.modSlot k f).budget = s.budget := rfl
@[simp] theorem State.modSlot_window (k : RecipeSlot) (f : SlotContent → SlotContent) (s : State) : (s.modSlot k f).window = s.window := rfl
@[simp] theorem State.modSlot_trips (k : RecipeSlot) (f : SlotContent → SlotContent) (s : State) : (s.modSlot k f).trips = s.trips := rfl
@[simp] theorem State.modSlot_cure (k : RecipeSlot) (f : SlotContent → SlotContent) (s : State) : (s.modSlot k f).cure = s.cure := rfl
@[simp] theorem State.modSlot_weigh (k : RecipeSlot) (f : SlotContent → SlotContent) (s : State) : (s.modSlot k f).weigh = s.weigh := rfl
@[simp] theorem State.modSlot_builder (k : RecipeSlot) (f : SlotContent → SlotContent) (s : State) : (s.modSlot k f).builder = s.builder := rfl
@[simp] theorem State.modSlot_queue (k : RecipeSlot) (f : SlotContent → SlotContent) (s : State) : (s.modSlot k f).queue = s.queue := rfl
@[simp] theorem State.modSlot_board (k : RecipeSlot) (f : SlotContent → SlotContent) (s : State) : (s.modSlot k f).board = s.board := rfl
@[simp] theorem State.modSlot_demould (k : RecipeSlot) (f : SlotContent → SlotContent) (s : State) : (s.modSlot k f).demould = s.demould := rfl
@[simp] theorem State.modSlot_arbiter (k : RecipeSlot) (f : SlotContent → SlotContent) (s : State) : (s.modSlot k f).arbiter = s.arbiter := rfl
@[simp] theorem State.modSlot_commit (k : RecipeSlot) (f : SlotContent → SlotContent) (s : State) : (s.modSlot k f).commit = s.commit := rfl
@[simp] theorem State.modSlot_history (k : RecipeSlot) (f : SlotContent → SlotContent) (s : State) : (s.modSlot k f).history = s.history := rfl
@[simp] theorem State.modSlot_link (k : RecipeSlot) (f : SlotContent → SlotContent) (s : State) : (s.modSlot k f).link = s.link := rfl
@[simp] theorem State.modSlot_flash (k : RecipeSlot) (f : SlotContent → SlotContent) (s : State) : (s.modSlot k f).flash = s.flash := rfl
@[simp] theorem State.modSlot_ports (k : RecipeSlot) (f : SlotContent → SlotContent) (s : State) : (s.modSlot k f).ports = s.ports := rfl
@[simp] theorem State.modSlot_nextOp (k : RecipeSlot) (f : SlotContent → SlotContent) (s : State) : (s.modSlot k f).nextOp = s.nextOp := rfl
@[simp] theorem State.modSlot_free (k : RecipeSlot) (f : SlotContent → SlotContent) (s : State) : (s.modSlot k f).free = s.free := rfl
@[simp] theorem State.modSlot_pending (k : RecipeSlot) (f : SlotContent → SlotContent) (s : State) : (s.modSlot k f).pending = s.pending := rfl
@[simp] theorem State.modSlot_port (k : RecipeSlot) (f : SlotContent → SlotContent) (s : State) (q : Port) : (s.modSlot k f).port q = s.port q := rfl
@[simp] theorem State.modSlot_entry (k : RecipeSlot) (f : SlotContent → SlotContent) (s : State) (e : Daylight) : (s.modSlot k f).entry e = s.entry e := rfl
@[simp] theorem State.modSlot_ejector (k : RecipeSlot) (f : SlotContent → SlotContent) (s : State) (e : Daylight) : (s.modSlot k f).ejector e = s.ejector e := rfl
@[simp] theorem State.modSlot_channel (k : RecipeSlot) (f : SlotContent → SlotContent) (s : State) (y : Zone) : (s.modSlot k f).channel y = s.channel y := rfl
@[simp] theorem State.modSlot_zone (k : RecipeSlot) (f : SlotContent → SlotContent) (s : State) (y : Zone) : (s.modSlot k f).zone y = s.zone y := rfl
@[simp] theorem State.modSlot_level (k : RecipeSlot) (f : SlotContent → SlotContent) (s : State) (l' : Line) : (s.modSlot k f).level l' = s.level l' := rfl
@[simp] theorem State.modSlot_holds (k : RecipeSlot) (f : SlotContent → SlotContent) (s : State) (e : Daylight) : (s.modSlot k f).holds e = s.holds e := rfl
@[simp] theorem State.modSlot_waits (k : RecipeSlot) (f : SlotContent → SlotContent) (s : State) (e : Daylight) : (s.modSlot k f).waits e = s.waits e := rfl
@[simp] theorem State.modSlot_depth (k : RecipeSlot) (f : SlotContent → SlotContent) (s : State) : (s.modSlot k f).depth = s.depth := rfl
@[simp] theorem State.modSlot_home (k : RecipeSlot) (f : SlotContent → SlotContent) (s : State) (e : Daylight) : (s.modSlot k f).home e = s.home e := rfl
@[simp] theorem State.modSlot_fwd (k : RecipeSlot) (f : SlotContent → SlotContent) (s : State) (e : Daylight) : (s.modSlot k f).fwd e = s.fwd e := rfl
@[simp] theorem State.modSlot_heatHold (k : RecipeSlot) (f : SlotContent → SlotContent) (s : State) : (s.modSlot k f).heatHold = s.heatHold := rfl

/-! ### settingsChanged -/

@[simp] theorem State.settingsChanged_clock (s : State) : (s.settingsChanged).clock = s.clock := rfl
@[simp] theorem State.settingsChanged_periods (s : State) : (s.settingsChanged).periods = s.periods := rfl
@[simp] theorem State.settingsChanged_lines (s : State) : (s.settingsChanged).lines = s.lines := rfl
@[simp] theorem State.settingsChanged_channels (s : State) : (s.settingsChanged).channels = s.channels := rfl
@[simp] theorem State.settingsChanged_zones (s : State) : (s.settingsChanged).zones = s.zones := rfl
@[simp] theorem State.settingsChanged_budget (s : State) : (s.settingsChanged).budget = s.budget := rfl
@[simp] theorem State.settingsChanged_window (s : State) : (s.settingsChanged).window = s.window := rfl
@[simp] theorem State.settingsChanged_trips (s : State) : (s.settingsChanged).trips = s.trips := rfl
@[simp] theorem State.settingsChanged_cure (s : State) : (s.settingsChanged).cure = s.cure := rfl
@[simp] theorem State.settingsChanged_weigh (s : State) : (s.settingsChanged).weigh = s.weigh := rfl
@[simp] theorem State.settingsChanged_builder (s : State) : (s.settingsChanged).builder = s.builder := rfl
@[simp] theorem State.settingsChanged_queue (s : State) : (s.settingsChanged).queue = s.queue := rfl
@[simp] theorem State.settingsChanged_board (s : State) : (s.settingsChanged).board = s.board := rfl
@[simp] theorem State.settingsChanged_demould (s : State) : (s.settingsChanged).demould = s.demould := rfl
@[simp] theorem State.settingsChanged_arbiter (s : State) : (s.settingsChanged).arbiter = s.arbiter := rfl
@[simp] theorem State.settingsChanged_commit (s : State) : (s.settingsChanged).commit = s.commit := rfl
@[simp] theorem State.settingsChanged_history (s : State) : (s.settingsChanged).history = s.history := rfl
@[simp] theorem State.settingsChanged_link (s : State) : (s.settingsChanged).link = s.link := rfl
@[simp] theorem State.settingsChanged_flash (s : State) : (s.settingsChanged).flash = s.flash := rfl
@[simp] theorem State.settingsChanged_ports (s : State) : (s.settingsChanged).ports = s.ports := rfl
@[simp] theorem State.settingsChanged_nextOp (s : State) : (s.settingsChanged).nextOp = s.nextOp := rfl
@[simp] theorem State.settingsChanged_free (s : State) : (s.settingsChanged).free = s.free := rfl
@[simp] theorem State.settingsChanged_pending (s : State) : (s.settingsChanged).pending = s.pending := rfl
@[simp] theorem State.settingsChanged_port (s : State) (q : Port) : (s.settingsChanged).port q = s.port q := rfl
@[simp] theorem State.settingsChanged_entry (s : State) (e : Daylight) : (s.settingsChanged).entry e = s.entry e := rfl
@[simp] theorem State.settingsChanged_ejector (s : State) (e : Daylight) : (s.settingsChanged).ejector e = s.ejector e := rfl
@[simp] theorem State.settingsChanged_channel (s : State) (y : Zone) : (s.settingsChanged).channel y = s.channel y := rfl
@[simp] theorem State.settingsChanged_zone (s : State) (y : Zone) : (s.settingsChanged).zone y = s.zone y := rfl
@[simp] theorem State.settingsChanged_level (s : State) (l' : Line) : (s.settingsChanged).level l' = s.level l' := rfl
@[simp] theorem State.settingsChanged_holds (s : State) (e : Daylight) : (s.settingsChanged).holds e = s.holds e := rfl
@[simp] theorem State.settingsChanged_waits (s : State) (e : Daylight) : (s.settingsChanged).waits e = s.waits e := rfl
@[simp] theorem State.settingsChanged_depth (s : State) : (s.settingsChanged).depth = s.depth := rfl
@[simp] theorem State.settingsChanged_home (s : State) (e : Daylight) : (s.settingsChanged).home e = s.home e := rfl
@[simp] theorem State.settingsChanged_fwd (s : State) (e : Daylight) : (s.settingsChanged).fwd e = s.fwd e := rfl
@[simp] theorem State.settingsChanged_heatHold (s : State) : (s.settingsChanged).heatHold = s.heatHold := rfl

/-! ### modBuilder -/

@[simp] theorem State.modBuilder_clock (f : Builder → Builder) (s : State) : (s.modBuilder f).clock = s.clock := rfl
@[simp] theorem State.modBuilder_periods (f : Builder → Builder) (s : State) : (s.modBuilder f).periods = s.periods := rfl
@[simp] theorem State.modBuilder_lines (f : Builder → Builder) (s : State) : (s.modBuilder f).lines = s.lines := rfl
@[simp] theorem State.modBuilder_channels (f : Builder → Builder) (s : State) : (s.modBuilder f).channels = s.channels := rfl
@[simp] theorem State.modBuilder_zones (f : Builder → Builder) (s : State) : (s.modBuilder f).zones = s.zones := rfl
@[simp] theorem State.modBuilder_budget (f : Builder → Builder) (s : State) : (s.modBuilder f).budget = s.budget := rfl
@[simp] theorem State.modBuilder_window (f : Builder → Builder) (s : State) : (s.modBuilder f).window = s.window := rfl
@[simp] theorem State.modBuilder_trips (f : Builder → Builder) (s : State) : (s.modBuilder f).trips = s.trips := rfl
@[simp] theorem State.modBuilder_cure (f : Builder → Builder) (s : State) : (s.modBuilder f).cure = s.cure := rfl
@[simp] theorem State.modBuilder_weigh (f : Builder → Builder) (s : State) : (s.modBuilder f).weigh = s.weigh := rfl
@[simp] theorem State.modBuilder_queue (f : Builder → Builder) (s : State) : (s.modBuilder f).queue = s.queue := rfl
@[simp] theorem State.modBuilder_board (f : Builder → Builder) (s : State) : (s.modBuilder f).board = s.board := rfl
@[simp] theorem State.modBuilder_demould (f : Builder → Builder) (s : State) : (s.modBuilder f).demould = s.demould := rfl
@[simp] theorem State.modBuilder_arbiter (f : Builder → Builder) (s : State) : (s.modBuilder f).arbiter = s.arbiter := rfl
@[simp] theorem State.modBuilder_recipes (f : Builder → Builder) (s : State) : (s.modBuilder f).recipes = s.recipes := rfl
@[simp] theorem State.modBuilder_commit (f : Builder → Builder) (s : State) : (s.modBuilder f).commit = s.commit := rfl
@[simp] theorem State.modBuilder_history (f : Builder → Builder) (s : State) : (s.modBuilder f).history = s.history := rfl
@[simp] theorem State.modBuilder_link (f : Builder → Builder) (s : State) : (s.modBuilder f).link = s.link := rfl
@[simp] theorem State.modBuilder_flash (f : Builder → Builder) (s : State) : (s.modBuilder f).flash = s.flash := rfl
@[simp] theorem State.modBuilder_ports (f : Builder → Builder) (s : State) : (s.modBuilder f).ports = s.ports := rfl
@[simp] theorem State.modBuilder_nextOp (f : Builder → Builder) (s : State) : (s.modBuilder f).nextOp = s.nextOp := rfl
@[simp] theorem State.modBuilder_free (f : Builder → Builder) (s : State) : (s.modBuilder f).free = s.free := rfl
@[simp] theorem State.modBuilder_pending (f : Builder → Builder) (s : State) : (s.modBuilder f).pending = s.pending := rfl
@[simp] theorem State.modBuilder_port (f : Builder → Builder) (s : State) (q : Port) : (s.modBuilder f).port q = s.port q := rfl
@[simp] theorem State.modBuilder_entry (f : Builder → Builder) (s : State) (e : Daylight) : (s.modBuilder f).entry e = s.entry e := rfl
@[simp] theorem State.modBuilder_ejector (f : Builder → Builder) (s : State) (e : Daylight) : (s.modBuilder f).ejector e = s.ejector e := rfl
@[simp] theorem State.modBuilder_channel (f : Builder → Builder) (s : State) (y : Zone) : (s.modBuilder f).channel y = s.channel y := rfl
@[simp] theorem State.modBuilder_zone (f : Builder → Builder) (s : State) (y : Zone) : (s.modBuilder f).zone y = s.zone y := rfl
@[simp] theorem State.modBuilder_level (f : Builder → Builder) (s : State) (l' : Line) : (s.modBuilder f).level l' = s.level l' := rfl
@[simp] theorem State.modBuilder_holds (f : Builder → Builder) (s : State) (e : Daylight) : (s.modBuilder f).holds e = s.holds e := rfl
@[simp] theorem State.modBuilder_waits (f : Builder → Builder) (s : State) (e : Daylight) : (s.modBuilder f).waits e = s.waits e := rfl
@[simp] theorem State.modBuilder_depth (f : Builder → Builder) (s : State) : (s.modBuilder f).depth = s.depth := rfl
@[simp] theorem State.modBuilder_home (f : Builder → Builder) (s : State) (e : Daylight) : (s.modBuilder f).home e = s.home e := rfl
@[simp] theorem State.modBuilder_fwd (f : Builder → Builder) (s : State) (e : Daylight) : (s.modBuilder f).fwd e = s.fwd e := rfl
@[simp] theorem State.modBuilder_heatHold (f : Builder → Builder) (s : State) : (s.modBuilder f).heatHold = s.heatHold := rfl
@[simp] theorem State.modBuilder_activeRecipe (f : Builder → Builder) (s : State) : (s.modBuilder f).activeRecipe = s.activeRecipe := rfl

/-! ### modLine -/

@[simp] theorem State.modLine_clock (l : Line) (f : LineState → LineState) (s : State) : (s.modLine l f).clock = s.clock := rfl
@[simp] theorem State.modLine_periods (l : Line) (f : LineState → LineState) (s : State) : (s.modLine l f).periods = s.periods := rfl
@[simp] theorem State.modLine_channels (l : Line) (f : LineState → LineState) (s : State) : (s.modLine l f).channels = s.channels := rfl
@[simp] theorem State.modLine_zones (l : Line) (f : LineState → LineState) (s : State) : (s.modLine l f).zones = s.zones := rfl
@[simp] theorem State.modLine_budget (l : Line) (f : LineState → LineState) (s : State) : (s.modLine l f).budget = s.budget := rfl
@[simp] theorem State.modLine_window (l : Line) (f : LineState → LineState) (s : State) : (s.modLine l f).window = s.window := rfl
@[simp] theorem State.modLine_trips (l : Line) (f : LineState → LineState) (s : State) : (s.modLine l f).trips = s.trips := rfl
@[simp] theorem State.modLine_cure (l : Line) (f : LineState → LineState) (s : State) : (s.modLine l f).cure = s.cure := rfl
@[simp] theorem State.modLine_weigh (l : Line) (f : LineState → LineState) (s : State) : (s.modLine l f).weigh = s.weigh := rfl
@[simp] theorem State.modLine_builder (l : Line) (f : LineState → LineState) (s : State) : (s.modLine l f).builder = s.builder := rfl
@[simp] theorem State.modLine_queue (l : Line) (f : LineState → LineState) (s : State) : (s.modLine l f).queue = s.queue := rfl
@[simp] theorem State.modLine_board (l : Line) (f : LineState → LineState) (s : State) : (s.modLine l f).board = s.board := rfl
@[simp] theorem State.modLine_demould (l : Line) (f : LineState → LineState) (s : State) : (s.modLine l f).demould = s.demould := rfl
@[simp] theorem State.modLine_arbiter (l : Line) (f : LineState → LineState) (s : State) : (s.modLine l f).arbiter = s.arbiter := rfl
@[simp] theorem State.modLine_recipes (l : Line) (f : LineState → LineState) (s : State) : (s.modLine l f).recipes = s.recipes := rfl
@[simp] theorem State.modLine_commit (l : Line) (f : LineState → LineState) (s : State) : (s.modLine l f).commit = s.commit := rfl
@[simp] theorem State.modLine_history (l : Line) (f : LineState → LineState) (s : State) : (s.modLine l f).history = s.history := rfl
@[simp] theorem State.modLine_link (l : Line) (f : LineState → LineState) (s : State) : (s.modLine l f).link = s.link := rfl
@[simp] theorem State.modLine_flash (l : Line) (f : LineState → LineState) (s : State) : (s.modLine l f).flash = s.flash := rfl
@[simp] theorem State.modLine_ports (l : Line) (f : LineState → LineState) (s : State) : (s.modLine l f).ports = s.ports := rfl
@[simp] theorem State.modLine_nextOp (l : Line) (f : LineState → LineState) (s : State) : (s.modLine l f).nextOp = s.nextOp := rfl
@[simp] theorem State.modLine_free (l : Line) (f : LineState → LineState) (s : State) : (s.modLine l f).free = s.free := rfl
@[simp] theorem State.modLine_pending (l : Line) (f : LineState → LineState) (s : State) : (s.modLine l f).pending = s.pending := rfl

/-! ### setCure -/

@[simp] theorem State.setCure_clock (d : Daylight) (x : CureState) (s : State) : (s.setCure d x).clock = s.clock := rfl
@[simp] theorem State.setCure_periods (d : Daylight) (x : CureState) (s : State) : (s.setCure d x).periods = s.periods := rfl
@[simp] theorem State.setCure_lines (d : Daylight) (x : CureState) (s : State) : (s.setCure d x).lines = s.lines := rfl
@[simp] theorem State.setCure_channels (d : Daylight) (x : CureState) (s : State) : (s.setCure d x).channels = s.channels := rfl
@[simp] theorem State.setCure_zones (d : Daylight) (x : CureState) (s : State) : (s.setCure d x).zones = s.zones := rfl
@[simp] theorem State.setCure_budget (d : Daylight) (x : CureState) (s : State) : (s.setCure d x).budget = s.budget := rfl
@[simp] theorem State.setCure_window (d : Daylight) (x : CureState) (s : State) : (s.setCure d x).window = s.window := rfl
@[simp] theorem State.setCure_trips (d : Daylight) (x : CureState) (s : State) : (s.setCure d x).trips = s.trips := rfl
@[simp] theorem State.setCure_weigh (d : Daylight) (x : CureState) (s : State) : (s.setCure d x).weigh = s.weigh := rfl
@[simp] theorem State.setCure_builder (d : Daylight) (x : CureState) (s : State) : (s.setCure d x).builder = s.builder := rfl
@[simp] theorem State.setCure_queue (d : Daylight) (x : CureState) (s : State) : (s.setCure d x).queue = s.queue := rfl
@[simp] theorem State.setCure_board (d : Daylight) (x : CureState) (s : State) : (s.setCure d x).board = s.board := rfl
@[simp] theorem State.setCure_demould (d : Daylight) (x : CureState) (s : State) : (s.setCure d x).demould = s.demould := rfl
@[simp] theorem State.setCure_arbiter (d : Daylight) (x : CureState) (s : State) : (s.setCure d x).arbiter = s.arbiter := rfl
@[simp] theorem State.setCure_recipes (d : Daylight) (x : CureState) (s : State) : (s.setCure d x).recipes = s.recipes := rfl
@[simp] theorem State.setCure_commit (d : Daylight) (x : CureState) (s : State) : (s.setCure d x).commit = s.commit := rfl
@[simp] theorem State.setCure_history (d : Daylight) (x : CureState) (s : State) : (s.setCure d x).history = s.history := rfl
@[simp] theorem State.setCure_link (d : Daylight) (x : CureState) (s : State) : (s.setCure d x).link = s.link := rfl
@[simp] theorem State.setCure_flash (d : Daylight) (x : CureState) (s : State) : (s.setCure d x).flash = s.flash := rfl
@[simp] theorem State.setCure_ports (d : Daylight) (x : CureState) (s : State) : (s.setCure d x).ports = s.ports := rfl
@[simp] theorem State.setCure_nextOp (d : Daylight) (x : CureState) (s : State) : (s.setCure d x).nextOp = s.nextOp := rfl
@[simp] theorem State.setCure_free (d : Daylight) (x : CureState) (s : State) : (s.setCure d x).free = s.free := rfl
@[simp] theorem State.setCure_pending (d : Daylight) (x : CureState) (s : State) : (s.setCure d x).pending = s.pending := rfl

/-! ### modHistory -/

@[simp] theorem State.modHistory_clock (f : History → History) (s : State) : (s.modHistory f).clock = s.clock := rfl
@[simp] theorem State.modHistory_periods (f : History → History) (s : State) : (s.modHistory f).periods = s.periods := rfl
@[simp] theorem State.modHistory_lines (f : History → History) (s : State) : (s.modHistory f).lines = s.lines := rfl
@[simp] theorem State.modHistory_channels (f : History → History) (s : State) : (s.modHistory f).channels = s.channels := rfl
@[simp] theorem State.modHistory_zones (f : History → History) (s : State) : (s.modHistory f).zones = s.zones := rfl
@[simp] theorem State.modHistory_budget (f : History → History) (s : State) : (s.modHistory f).budget = s.budget := rfl
@[simp] theorem State.modHistory_window (f : History → History) (s : State) : (s.modHistory f).window = s.window := rfl
@[simp] theorem State.modHistory_trips (f : History → History) (s : State) : (s.modHistory f).trips = s.trips := rfl
@[simp] theorem State.modHistory_cure (f : History → History) (s : State) : (s.modHistory f).cure = s.cure := rfl
@[simp] theorem State.modHistory_weigh (f : History → History) (s : State) : (s.modHistory f).weigh = s.weigh := rfl
@[simp] theorem State.modHistory_builder (f : History → History) (s : State) : (s.modHistory f).builder = s.builder := rfl
@[simp] theorem State.modHistory_queue (f : History → History) (s : State) : (s.modHistory f).queue = s.queue := rfl
@[simp] theorem State.modHistory_board (f : History → History) (s : State) : (s.modHistory f).board = s.board := rfl
@[simp] theorem State.modHistory_demould (f : History → History) (s : State) : (s.modHistory f).demould = s.demould := rfl
@[simp] theorem State.modHistory_arbiter (f : History → History) (s : State) : (s.modHistory f).arbiter = s.arbiter := rfl
@[simp] theorem State.modHistory_recipes (f : History → History) (s : State) : (s.modHistory f).recipes = s.recipes := rfl
@[simp] theorem State.modHistory_commit (f : History → History) (s : State) : (s.modHistory f).commit = s.commit := rfl
@[simp] theorem State.modHistory_link (f : History → History) (s : State) : (s.modHistory f).link = s.link := rfl
@[simp] theorem State.modHistory_flash (f : History → History) (s : State) : (s.modHistory f).flash = s.flash := rfl
@[simp] theorem State.modHistory_ports (f : History → History) (s : State) : (s.modHistory f).ports = s.ports := rfl
@[simp] theorem State.modHistory_nextOp (f : History → History) (s : State) : (s.modHistory f).nextOp = s.nextOp := rfl
@[simp] theorem State.modHistory_free (f : History → History) (s : State) : (s.modHistory f).free = s.free := rfl
@[simp] theorem State.modHistory_pending (f : History → History) (s : State) : (s.modHistory f).pending = s.pending := rfl
@[simp] theorem State.modHistory_port (f : History → History) (s : State) (q : Port) : (s.modHistory f).port q = s.port q := rfl
@[simp] theorem State.modHistory_entry (f : History → History) (s : State) (e : Daylight) : (s.modHistory f).entry e = s.entry e := rfl
@[simp] theorem State.modHistory_ejector (f : History → History) (s : State) (e : Daylight) : (s.modHistory f).ejector e = s.ejector e := rfl
@[simp] theorem State.modHistory_channel (f : History → History) (s : State) (y : Zone) : (s.modHistory f).channel y = s.channel y := rfl
@[simp] theorem State.modHistory_zone (f : History → History) (s : State) (y : Zone) : (s.modHistory f).zone y = s.zone y := rfl
@[simp] theorem State.modHistory_level (f : History → History) (s : State) (l' : Line) : (s.modHistory f).level l' = s.level l' := rfl
@[simp] theorem State.modHistory_holds (f : History → History) (s : State) (e : Daylight) : (s.modHistory f).holds e = s.holds e := rfl
@[simp] theorem State.modHistory_waits (f : History → History) (s : State) (e : Daylight) : (s.modHistory f).waits e = s.waits e := rfl
@[simp] theorem State.modHistory_depth (f : History → History) (s : State) : (s.modHistory f).depth = s.depth := rfl
@[simp] theorem State.modHistory_home (f : History → History) (s : State) (e : Daylight) : (s.modHistory f).home e = s.home e := rfl
@[simp] theorem State.modHistory_fwd (f : History → History) (s : State) (e : Daylight) : (s.modHistory f).fwd e = s.fwd e := rfl
@[simp] theorem State.modHistory_heatHold (f : History → History) (s : State) : (s.modHistory f).heatHold = s.heatHold := rfl
@[simp] theorem State.modHistory_activeRecipe (f : History → History) (s : State) : (s.modHistory f).activeRecipe = s.activeRecipe := rfl

/-! ### modFlash -/

@[simp] theorem State.modFlash_clock (f : Flash → Flash) (s : State) : (s.modFlash f).clock = s.clock := rfl
@[simp] theorem State.modFlash_periods (f : Flash → Flash) (s : State) : (s.modFlash f).periods = s.periods := rfl
@[simp] theorem State.modFlash_lines (f : Flash → Flash) (s : State) : (s.modFlash f).lines = s.lines := rfl
@[simp] theorem State.modFlash_channels (f : Flash → Flash) (s : State) : (s.modFlash f).channels = s.channels := rfl
@[simp] theorem State.modFlash_zones (f : Flash → Flash) (s : State) : (s.modFlash f).zones = s.zones := rfl
@[simp] theorem State.modFlash_budget (f : Flash → Flash) (s : State) : (s.modFlash f).budget = s.budget := rfl
@[simp] theorem State.modFlash_window (f : Flash → Flash) (s : State) : (s.modFlash f).window = s.window := rfl
@[simp] theorem State.modFlash_trips (f : Flash → Flash) (s : State) : (s.modFlash f).trips = s.trips := rfl
@[simp] theorem State.modFlash_cure (f : Flash → Flash) (s : State) : (s.modFlash f).cure = s.cure := rfl
@[simp] theorem State.modFlash_weigh (f : Flash → Flash) (s : State) : (s.modFlash f).weigh = s.weigh := rfl
@[simp] theorem State.modFlash_builder (f : Flash → Flash) (s : State) : (s.modFlash f).builder = s.builder := rfl
@[simp] theorem State.modFlash_queue (f : Flash → Flash) (s : State) : (s.modFlash f).queue = s.queue := rfl
@[simp] theorem State.modFlash_board (f : Flash → Flash) (s : State) : (s.modFlash f).board = s.board := rfl
@[simp] theorem State.modFlash_demould (f : Flash → Flash) (s : State) : (s.modFlash f).demould = s.demould := rfl
@[simp] theorem State.modFlash_arbiter (f : Flash → Flash) (s : State) : (s.modFlash f).arbiter = s.arbiter := rfl
@[simp] theorem State.modFlash_recipes (f : Flash → Flash) (s : State) : (s.modFlash f).recipes = s.recipes := rfl
@[simp] theorem State.modFlash_commit (f : Flash → Flash) (s : State) : (s.modFlash f).commit = s.commit := rfl
@[simp] theorem State.modFlash_history (f : Flash → Flash) (s : State) : (s.modFlash f).history = s.history := rfl
@[simp] theorem State.modFlash_link (f : Flash → Flash) (s : State) : (s.modFlash f).link = s.link := rfl
@[simp] theorem State.modFlash_ports (f : Flash → Flash) (s : State) : (s.modFlash f).ports = s.ports := rfl
@[simp] theorem State.modFlash_nextOp (f : Flash → Flash) (s : State) : (s.modFlash f).nextOp = s.nextOp := rfl
@[simp] theorem State.modFlash_free (f : Flash → Flash) (s : State) : (s.modFlash f).free = s.free := rfl
@[simp] theorem State.modFlash_pending (f : Flash → Flash) (s : State) : (s.modFlash f).pending = s.pending := rfl

/-! ### linkStep -/

@[simp] theorem State.linkStep_clock (op : LinkOp) (left : Option Nat) (s : State) : (s.linkStep op left).clock = s.clock := rfl
@[simp] theorem State.linkStep_periods (op : LinkOp) (left : Option Nat) (s : State) : (s.linkStep op left).periods = s.periods := rfl
@[simp] theorem State.linkStep_lines (op : LinkOp) (left : Option Nat) (s : State) : (s.linkStep op left).lines = s.lines := rfl
@[simp] theorem State.linkStep_channels (op : LinkOp) (left : Option Nat) (s : State) : (s.linkStep op left).channels = s.channels := rfl
@[simp] theorem State.linkStep_zones (op : LinkOp) (left : Option Nat) (s : State) : (s.linkStep op left).zones = s.zones := rfl
@[simp] theorem State.linkStep_budget (op : LinkOp) (left : Option Nat) (s : State) : (s.linkStep op left).budget = s.budget := rfl
@[simp] theorem State.linkStep_window (op : LinkOp) (left : Option Nat) (s : State) : (s.linkStep op left).window = s.window := rfl
@[simp] theorem State.linkStep_trips (op : LinkOp) (left : Option Nat) (s : State) : (s.linkStep op left).trips = s.trips := rfl
@[simp] theorem State.linkStep_cure (op : LinkOp) (left : Option Nat) (s : State) : (s.linkStep op left).cure = s.cure := rfl
@[simp] theorem State.linkStep_weigh (op : LinkOp) (left : Option Nat) (s : State) : (s.linkStep op left).weigh = s.weigh := rfl
@[simp] theorem State.linkStep_builder (op : LinkOp) (left : Option Nat) (s : State) : (s.linkStep op left).builder = s.builder := rfl
@[simp] theorem State.linkStep_queue (op : LinkOp) (left : Option Nat) (s : State) : (s.linkStep op left).queue = s.queue := rfl
@[simp] theorem State.linkStep_board (op : LinkOp) (left : Option Nat) (s : State) : (s.linkStep op left).board = s.board := rfl
@[simp] theorem State.linkStep_demould (op : LinkOp) (left : Option Nat) (s : State) : (s.linkStep op left).demould = s.demould := rfl
@[simp] theorem State.linkStep_arbiter (op : LinkOp) (left : Option Nat) (s : State) : (s.linkStep op left).arbiter = s.arbiter := rfl
@[simp] theorem State.linkStep_recipes (op : LinkOp) (left : Option Nat) (s : State) : (s.linkStep op left).recipes = s.recipes := rfl
@[simp] theorem State.linkStep_commit (op : LinkOp) (left : Option Nat) (s : State) : (s.linkStep op left).commit = s.commit := rfl
@[simp] theorem State.linkStep_history (op : LinkOp) (left : Option Nat) (s : State) : (s.linkStep op left).history = s.history := rfl
@[simp] theorem State.linkStep_flash (op : LinkOp) (left : Option Nat) (s : State) : (s.linkStep op left).flash = s.flash := rfl
@[simp] theorem State.linkStep_ports (op : LinkOp) (left : Option Nat) (s : State) : (s.linkStep op left).ports = s.ports := rfl
@[simp] theorem State.linkStep_nextOp (op : LinkOp) (left : Option Nat) (s : State) : (s.linkStep op left).nextOp = s.nextOp := rfl
@[simp] theorem State.linkStep_free (op : LinkOp) (left : Option Nat) (s : State) : (s.linkStep op left).free = s.free := rfl
@[simp] theorem State.linkStep_pending (op : LinkOp) (left : Option Nat) (s : State) : (s.linkStep op left).pending = s.pending := rfl
@[simp] theorem State.linkStep_port (op : LinkOp) (left : Option Nat) (s : State) (q : Port) : (s.linkStep op left).port q = s.port q := rfl
@[simp] theorem State.linkStep_entry (op : LinkOp) (left : Option Nat) (s : State) (e : Daylight) : (s.linkStep op left).entry e = s.entry e := rfl
@[simp] theorem State.linkStep_ejector (op : LinkOp) (left : Option Nat) (s : State) (e : Daylight) : (s.linkStep op left).ejector e = s.ejector e := rfl
@[simp] theorem State.linkStep_channel (op : LinkOp) (left : Option Nat) (s : State) (y : Zone) : (s.linkStep op left).channel y = s.channel y := rfl
@[simp] theorem State.linkStep_zone (op : LinkOp) (left : Option Nat) (s : State) (y : Zone) : (s.linkStep op left).zone y = s.zone y := rfl
@[simp] theorem State.linkStep_level (op : LinkOp) (left : Option Nat) (s : State) (l' : Line) : (s.linkStep op left).level l' = s.level l' := rfl
@[simp] theorem State.linkStep_holds (op : LinkOp) (left : Option Nat) (s : State) (e : Daylight) : (s.linkStep op left).holds e = s.holds e := rfl
@[simp] theorem State.linkStep_waits (op : LinkOp) (left : Option Nat) (s : State) (e : Daylight) : (s.linkStep op left).waits e = s.waits e := rfl
@[simp] theorem State.linkStep_depth (op : LinkOp) (left : Option Nat) (s : State) : (s.linkStep op left).depth = s.depth := rfl
@[simp] theorem State.linkStep_home (op : LinkOp) (left : Option Nat) (s : State) (e : Daylight) : (s.linkStep op left).home e = s.home e := rfl
@[simp] theorem State.linkStep_fwd (op : LinkOp) (left : Option Nat) (s : State) (e : Daylight) : (s.linkStep op left).fwd e = s.fwd e := rfl
@[simp] theorem State.linkStep_heatHold (op : LinkOp) (left : Option Nat) (s : State) : (s.linkStep op left).heatHold = s.heatHold := rfl
@[simp] theorem State.linkStep_activeRecipe (op : LinkOp) (left : Option Nat) (s : State) : (s.linkStep op left).activeRecipe = s.activeRecipe := rfl

/-! ### linkIdle -/

@[simp] theorem State.linkIdle_clock (s : State) : (s.linkIdle).clock = s.clock := rfl
@[simp] theorem State.linkIdle_periods (s : State) : (s.linkIdle).periods = s.periods := rfl
@[simp] theorem State.linkIdle_lines (s : State) : (s.linkIdle).lines = s.lines := rfl
@[simp] theorem State.linkIdle_channels (s : State) : (s.linkIdle).channels = s.channels := rfl
@[simp] theorem State.linkIdle_zones (s : State) : (s.linkIdle).zones = s.zones := rfl
@[simp] theorem State.linkIdle_budget (s : State) : (s.linkIdle).budget = s.budget := rfl
@[simp] theorem State.linkIdle_window (s : State) : (s.linkIdle).window = s.window := rfl
@[simp] theorem State.linkIdle_trips (s : State) : (s.linkIdle).trips = s.trips := rfl
@[simp] theorem State.linkIdle_cure (s : State) : (s.linkIdle).cure = s.cure := rfl
@[simp] theorem State.linkIdle_weigh (s : State) : (s.linkIdle).weigh = s.weigh := rfl
@[simp] theorem State.linkIdle_builder (s : State) : (s.linkIdle).builder = s.builder := rfl
@[simp] theorem State.linkIdle_queue (s : State) : (s.linkIdle).queue = s.queue := rfl
@[simp] theorem State.linkIdle_board (s : State) : (s.linkIdle).board = s.board := rfl
@[simp] theorem State.linkIdle_demould (s : State) : (s.linkIdle).demould = s.demould := rfl
@[simp] theorem State.linkIdle_arbiter (s : State) : (s.linkIdle).arbiter = s.arbiter := rfl
@[simp] theorem State.linkIdle_recipes (s : State) : (s.linkIdle).recipes = s.recipes := rfl
@[simp] theorem State.linkIdle_commit (s : State) : (s.linkIdle).commit = s.commit := rfl
@[simp] theorem State.linkIdle_history (s : State) : (s.linkIdle).history = s.history := rfl
@[simp] theorem State.linkIdle_flash (s : State) : (s.linkIdle).flash = s.flash := rfl
@[simp] theorem State.linkIdle_ports (s : State) : (s.linkIdle).ports = s.ports := rfl
@[simp] theorem State.linkIdle_nextOp (s : State) : (s.linkIdle).nextOp = s.nextOp := rfl
@[simp] theorem State.linkIdle_free (s : State) : (s.linkIdle).free = s.free := rfl
@[simp] theorem State.linkIdle_pending (s : State) : (s.linkIdle).pending = s.pending := rfl
@[simp] theorem State.linkIdle_port (s : State) (q : Port) : (s.linkIdle).port q = s.port q := rfl
@[simp] theorem State.linkIdle_entry (s : State) (e : Daylight) : (s.linkIdle).entry e = s.entry e := rfl
@[simp] theorem State.linkIdle_ejector (s : State) (e : Daylight) : (s.linkIdle).ejector e = s.ejector e := rfl
@[simp] theorem State.linkIdle_channel (s : State) (y : Zone) : (s.linkIdle).channel y = s.channel y := rfl
@[simp] theorem State.linkIdle_zone (s : State) (y : Zone) : (s.linkIdle).zone y = s.zone y := rfl
@[simp] theorem State.linkIdle_level (s : State) (l' : Line) : (s.linkIdle).level l' = s.level l' := rfl
@[simp] theorem State.linkIdle_holds (s : State) (e : Daylight) : (s.linkIdle).holds e = s.holds e := rfl
@[simp] theorem State.linkIdle_waits (s : State) (e : Daylight) : (s.linkIdle).waits e = s.waits e := rfl
@[simp] theorem State.linkIdle_depth (s : State) : (s.linkIdle).depth = s.depth := rfl
@[simp] theorem State.linkIdle_home (s : State) (e : Daylight) : (s.linkIdle).home e = s.home e := rfl
@[simp] theorem State.linkIdle_fwd (s : State) (e : Daylight) : (s.linkIdle).fwd e = s.fwd e := rfl
@[simp] theorem State.linkIdle_heatHold (s : State) : (s.linkIdle).heatHold = s.heatHold := rfl
@[simp] theorem State.linkIdle_activeRecipe (s : State) : (s.linkIdle).activeRecipe = s.activeRecipe := rfl

/-! ### activate -/

@[simp] theorem State.activate_clock (x : Option RecipeSlot) (s : State) : (s.activate x).clock = s.clock := rfl
@[simp] theorem State.activate_periods (x : Option RecipeSlot) (s : State) : (s.activate x).periods = s.periods := rfl
@[simp] theorem State.activate_lines (x : Option RecipeSlot) (s : State) : (s.activate x).lines = s.lines := rfl
@[simp] theorem State.activate_channels (x : Option RecipeSlot) (s : State) : (s.activate x).channels = s.channels := rfl
@[simp] theorem State.activate_zones (x : Option RecipeSlot) (s : State) : (s.activate x).zones = s.zones := rfl
@[simp] theorem State.activate_budget (x : Option RecipeSlot) (s : State) : (s.activate x).budget = s.budget := rfl
@[simp] theorem State.activate_window (x : Option RecipeSlot) (s : State) : (s.activate x).window = s.window := rfl
@[simp] theorem State.activate_trips (x : Option RecipeSlot) (s : State) : (s.activate x).trips = s.trips := rfl
@[simp] theorem State.activate_cure (x : Option RecipeSlot) (s : State) : (s.activate x).cure = s.cure := rfl
@[simp] theorem State.activate_weigh (x : Option RecipeSlot) (s : State) : (s.activate x).weigh = s.weigh := rfl
@[simp] theorem State.activate_builder (x : Option RecipeSlot) (s : State) : (s.activate x).builder = s.builder := rfl
@[simp] theorem State.activate_queue (x : Option RecipeSlot) (s : State) : (s.activate x).queue = s.queue := rfl
@[simp] theorem State.activate_board (x : Option RecipeSlot) (s : State) : (s.activate x).board = s.board := rfl
@[simp] theorem State.activate_demould (x : Option RecipeSlot) (s : State) : (s.activate x).demould = s.demould := rfl
@[simp] theorem State.activate_arbiter (x : Option RecipeSlot) (s : State) : (s.activate x).arbiter = s.arbiter := rfl
@[simp] theorem State.activate_commit (x : Option RecipeSlot) (s : State) : (s.activate x).commit = s.commit := rfl
@[simp] theorem State.activate_history (x : Option RecipeSlot) (s : State) : (s.activate x).history = s.history := rfl
@[simp] theorem State.activate_link (x : Option RecipeSlot) (s : State) : (s.activate x).link = s.link := rfl
@[simp] theorem State.activate_flash (x : Option RecipeSlot) (s : State) : (s.activate x).flash = s.flash := rfl
@[simp] theorem State.activate_ports (x : Option RecipeSlot) (s : State) : (s.activate x).ports = s.ports := rfl
@[simp] theorem State.activate_nextOp (x : Option RecipeSlot) (s : State) : (s.activate x).nextOp = s.nextOp := rfl
@[simp] theorem State.activate_free (x : Option RecipeSlot) (s : State) : (s.activate x).free = s.free := rfl
@[simp] theorem State.activate_pending (x : Option RecipeSlot) (s : State) : (s.activate x).pending = s.pending := rfl

/-! ### putRecipe -/

@[simp] theorem State.putRecipe_clock (k : RecipeSlot) (r : Recipe) (s : State) : (s.putRecipe k r).clock = s.clock := rfl
@[simp] theorem State.putRecipe_periods (k : RecipeSlot) (r : Recipe) (s : State) : (s.putRecipe k r).periods = s.periods := rfl
@[simp] theorem State.putRecipe_lines (k : RecipeSlot) (r : Recipe) (s : State) : (s.putRecipe k r).lines = s.lines := rfl
@[simp] theorem State.putRecipe_channels (k : RecipeSlot) (r : Recipe) (s : State) : (s.putRecipe k r).channels = s.channels := rfl
@[simp] theorem State.putRecipe_zones (k : RecipeSlot) (r : Recipe) (s : State) : (s.putRecipe k r).zones = s.zones := rfl
@[simp] theorem State.putRecipe_budget (k : RecipeSlot) (r : Recipe) (s : State) : (s.putRecipe k r).budget = s.budget := rfl
@[simp] theorem State.putRecipe_window (k : RecipeSlot) (r : Recipe) (s : State) : (s.putRecipe k r).window = s.window := rfl
@[simp] theorem State.putRecipe_trips (k : RecipeSlot) (r : Recipe) (s : State) : (s.putRecipe k r).trips = s.trips := rfl
@[simp] theorem State.putRecipe_cure (k : RecipeSlot) (r : Recipe) (s : State) : (s.putRecipe k r).cure = s.cure := rfl
@[simp] theorem State.putRecipe_weigh (k : RecipeSlot) (r : Recipe) (s : State) : (s.putRecipe k r).weigh = s.weigh := rfl
@[simp] theorem State.putRecipe_builder (k : RecipeSlot) (r : Recipe) (s : State) : (s.putRecipe k r).builder = s.builder := rfl
@[simp] theorem State.putRecipe_queue (k : RecipeSlot) (r : Recipe) (s : State) : (s.putRecipe k r).queue = s.queue := rfl
@[simp] theorem State.putRecipe_board (k : RecipeSlot) (r : Recipe) (s : State) : (s.putRecipe k r).board = s.board := rfl
@[simp] theorem State.putRecipe_demould (k : RecipeSlot) (r : Recipe) (s : State) : (s.putRecipe k r).demould = s.demould := rfl
@[simp] theorem State.putRecipe_arbiter (k : RecipeSlot) (r : Recipe) (s : State) : (s.putRecipe k r).arbiter = s.arbiter := rfl
@[simp] theorem State.putRecipe_commit (k : RecipeSlot) (r : Recipe) (s : State) : (s.putRecipe k r).commit = s.commit := rfl
@[simp] theorem State.putRecipe_history (k : RecipeSlot) (r : Recipe) (s : State) : (s.putRecipe k r).history = s.history := rfl
@[simp] theorem State.putRecipe_link (k : RecipeSlot) (r : Recipe) (s : State) : (s.putRecipe k r).link = s.link := rfl
@[simp] theorem State.putRecipe_flash (k : RecipeSlot) (r : Recipe) (s : State) : (s.putRecipe k r).flash = s.flash := rfl
@[simp] theorem State.putRecipe_ports (k : RecipeSlot) (r : Recipe) (s : State) : (s.putRecipe k r).ports = s.ports := rfl
@[simp] theorem State.putRecipe_nextOp (k : RecipeSlot) (r : Recipe) (s : State) : (s.putRecipe k r).nextOp = s.nextOp := rfl
@[simp] theorem State.putRecipe_free (k : RecipeSlot) (r : Recipe) (s : State) : (s.putRecipe k r).free = s.free := rfl
@[simp] theorem State.putRecipe_pending (k : RecipeSlot) (r : Recipe) (s : State) : (s.putRecipe k r).pending = s.pending := rfl

end Machine

end Sys2Proof
end

