-- ==== Sys2Proof/Laws/Ops.lean ====
section
/-! SUPPORT. What each shared operation can do, said once: frames, the transaction of a request, notices, the delivery of a
result, offers to the Commit Queue, the application at idle, the window clock. -/

namespace Sys2Proof.Machine

/-! ## Frames -/

theorem Frame.refl (changed : List Block) (s : State) : Frame changed s s := by
  intro b _
  cases b <;> rfl

theorem Frame.trans {changed : List Block} {s t u : State} (h : Frame changed s t) (h' : Frame changed t u) :
    Frame changed s u := by
  intro b hb
  have h1 := h b hb
  have h2 := h' b hb
  cases b <;> exact h2.trans h1

theorem Frame.mono {small big : List Block} {s t : State} (h : Frame small s t) (hsub : ∀ b ∈ small, b ∈ big) :
    Frame big s t := fun b hb => h b (fun hs => hb (hsub b hs))

/-- Do the same for each of a list of items: what every single one keeps, the whole keeps. -/
theorem State.each_keeps {α : Type} (P : State → Prop) (f : α → State → State) (items : List α)
    (h : ∀ x ∈ items, ∀ s, P s → P (f x s)) (s : State) (hs : P s) : P (s.each items f) := by
  induction items generalizing s with
  | nil => exact hs
  | cons x xs ih => exact ih (fun y hy => h y (List.mem_cons_of_mem _ hy)) _ (h x List.mem_cons_self s hs)

theorem State.each_frame {α : Type} (changed : List Block) (f : α → State → State) (items : List α)
    (h : ∀ x s, Frame changed s (f x s)) (s : State) : Frame changed s (s.each items f) :=
  State.each_keeps (fun t => Frame changed s t) f items (fun x _ t ht => ht.trans (h x t)) s (Frame.refl _ _)

@[simp] theorem State.each_nil {α : Type} (f : α → State → State) (s : State) : s.each [] f = s := rfl

@[simp] theorem State.each_cons {α : Type} (x : α) (xs : List α) (f : α → State → State) (s : State) :
    s.each (x :: xs) f = (f x s).each xs f := rfl

/-! ## Notices -/

@[simp] theorem PortState.notify_role (w : NoticeWord) (q : PortState) : (q.notify w).role = q.role := by
  unfold PortState.notify; split <;> rfl
@[simp] theorem PortState.notify_selected (w : NoticeWord) (q : PortState) : (q.notify w).selected = q.selected := by
  unfold PortState.notify; split <;> rfl
@[simp] theorem PortState.notify_recv (w : NoticeWord) (q : PortState) : (q.notify w).recv = q.recv := by
  unfold PortState.notify; split <;> rfl
@[simp] theorem PortState.notify_mask (w : NoticeWord) (q : PortState) : (q.notify w).mask = q.mask := by
  unfold PortState.notify; split <;> rfl
@[simp] theorem PortState.notify_slot (w : NoticeWord) (q : PortState) : (q.notify w).slot = q.slot := by
  unfold PortState.notify; split <;> rfl
@[simp] theorem PortState.notify_cursor (w : NoticeWord) (q : PortState) : (q.notify w).cursor = q.cursor := by
  unfold PortState.notify; split <;> rfl
@[simp] theorem PortState.notify_cursorValid (w : NoticeWord) (q : PortState) :
    (q.notify w).cursorValid = q.cursorValid := by
  unfold PortState.notify; split <;> rfl
@[simp] theorem PortState.notify_read (w : NoticeWord) (q : PortState) : (q.notify w).read = q.read := by
  unfold PortState.notify; split <;> rfl
@[simp] theorem PortState.notify_response (w : NoticeWord) (q : PortState) : (q.notify w).response = q.response := by
  unfold PortState.notify; split <;> rfl

@[simp] theorem PortState.notify_clocked (w : NoticeWord) (q : PortState) : (q.notify w).clocked = q.clocked := by
  unfold PortState.notify; split <;> rfl

/-- A raise changes nothing of a port but its notices. -/
theorem PortState.notify_eq (w : NoticeWord) (q : PortState) : q.notify w = { q with notices := (q.notify w).notices } := by
  unfold PortState.notify; split <;> rfl

theorem OnlyNotices.refl (s : State) : OnlyNotices s s := fun _ => rfl

theorem OnlyNotices.trans {s t u : State} (h : OnlyNotices s t) (h' : OnlyNotices t u) : OnlyNotices s u := by
  intro p
  have h1 := h p
  have h2 := h' p
  rw [h1] at h2
  exact h2

/-- A raise after updates that leave the ports alone. -/
theorem OnlyNotices.of_raise (k : Notice) {s t : State} (h : t.ports = s.ports) : OnlyNotices s (t.raise k) := by
  intro p
  rw [State.raise_port]
  have hp : t.port p = s.port p := congrArg (fun x => x.get p) h
  rw [hp]
  exact PortState.notify_eq ..

theorem State.raise_onlyNotices (k : Notice) (s : State) : OnlyNotices s (s.raise k) := OnlyNotices.of_raise k rfl

theorem State.raise_raised (k : Notice) (s : State) : Raised k (s.raise k) := by
  intro p hp
  rw [State.raise_port] at hp ⊢
  simp only [PortState.notify_role] at hp
  unfold PortState.notify
  rw [if_neg hp]
  apply BitVec.eq_of_getLsbD_eq
  intro i hi
  simp only [BitVec.getLsbD_and, BitVec.getLsbD_or]
  cases (Notice.word k).getLsbD i <;> simp

/-- A kind once raised stays raised through another raise. -/
theorem Raised.raise {k : Notice} {s : State} (h : Raised k s) (k' : Notice) : Raised k (s.raise k') := by
  intro p hp
  rw [State.raise_port] at hp ⊢
  simp only [PortState.notify_role] at hp
  have h0 := h p hp
  unfold PortState.notify
  rw [if_neg hp]
  apply BitVec.eq_of_getLsbD_eq
  intro i hi
  have h1 := congrArg (fun w => w.getLsbD i) h0
  simp only [BitVec.getLsbD_and, BitVec.getLsbD_or] at h1 ⊢
  cases hk : (Notice.word k).getLsbD i <;> simp_all

/-- The onset of a level kind: a raise, or nothing. -/
theorem State.raiseOnset_cases (k : Notice) (before after : Bool) (s : State) :
    (after = true ∧ before = false ∧ s.raiseOnset k before after = s.raise k) ∨ s.raiseOnset k before after = s := by
  unfold State.raiseOnset
  cases after <;> cases before <;> simp

/-! ## The transaction of a request (R179, R180) -/

@[simp] theorem State.enterWorking_port (p q : Port) (s : State) :
    (s.enterWorking p).port q = if q = p then { s.port p with recv := .working } else s.port q := Three.get_set ..

@[simp] theorem State.respond_port (p q : Port) (r : Response) (s : State) :
    (s.respond p r).port q = if q = p then { s.port p with response := some r } else s.port q := Three.get_set ..

/-- A request that changes nothing but its port, entering WORKING with its response. -/
theorem State.respond_enterWorking (p : Port) (r : Response) (s : State) :
    (s.enterWorking p).respond p r = s.answered p r := by
  cases p <;> rfl

/-- A request taken by the block that owns it: the checks of R179 pass and the body answers. -/
theorem State.request_taken {row : Row} {p : Port} {payload : List Byte} {s : State} (h : Taken row p payload s)
    (body : State → Reply) :
    s.request row p payload body
      = (body (s.enterWorking p)).1.respond p (body (s.enterWorking p)).2 := by
  obtain ⟨h1, h2, h3⟩ := h
  simp [State.request, checkedReply, h1, h2, h3]

/-- A request whose body only refuses or reads. -/
theorem State.request_answered {row : Row} {p : Port} {payload : List Byte} {s : State} (h : Taken row p payload s)
    {body : State → Reply} {r : Response} (hb : body (s.enterWorking p) = (s.enterWorking p, r)) :
    s.request row p payload body = s.answered p r := by
  rw [State.request_taken h, hb]
  exact State.respond_enterWorking ..

theorem State.request_denied {row : Row} {p : Port} {payload : List Byte} {s : State} (h : (s.port p).recv = .request)
    (hr : (s.port p).role ∉ row.roles) (body : State → Reply) :
    s.request row p payload body = s.answered p ⟨.denied, 0, []⟩ := by
  simp [State.request, checkedReply, h, hr, refuse, State.respond_enterWorking]

theorem State.request_length {row : Row} {p : Port} {payload : List Byte} {s : State} (h : (s.port p).recv = .request)
    (hr : (s.port p).role ∈ row.roles) (hl : payload.length ≠ row.length) (body : State → Reply) :
    s.request row p payload body = s.answered p ⟨.badValue, row.length, []⟩ := by
  simp [State.request, checkedReply, h, hr, hl, refuse, State.respond_enterWorking]

theorem State.request_ignored {row : Row} {p : Port} {payload : List Byte} {s : State} (h : (s.port p).recv ≠ .request)
    (body : State → Reply) : s.request row p payload body = s := by
  simp [State.request, h]

/-- All that a request can do. -/
theorem State.request_cases (row : Row) (p : Port) (payload : List Byte) (body : State → Reply) (s : State) :
    s.request row p payload body = s ∨ (∃ r, s.request row p payload body = s.answered p r) ∨
      (Taken row p payload s ∧ s.request row p payload body
        = (body (s.enterWorking p)).1.respond p (body (s.enterWorking p)).2) := by
  by_cases h : (s.port p).recv = .request
  · by_cases hr : (s.port p).role ∈ row.roles
    · by_cases hl : payload.length = row.length
      · exact .inr (.inr ⟨⟨h, hr, hl⟩, State.request_taken ⟨h, hr, hl⟩ body⟩)
      · exact .inr (.inl ⟨_, State.request_length h hr hl body⟩)
    · exact .inr (.inl ⟨_, State.request_denied h hr body⟩)
  · exact .inl (State.request_ignored h body)

/-- What a property needs to survive a request: the answer at the port, the entry to WORKING, and the body. -/
theorem State.request_keeps (P : State → Prop) {row : Row} {p : Port} {payload : List Byte} {body : State → Reply}
    {s : State} (hports : ∀ t u, (∃ x, u = { t with ports := t.ports.set p x } ∧ x.role = (t.port p).role ∧
      x.notices = (t.port p).notices ∧ x.mask = (t.port p).mask) → P t → P u)
    (hbody : ∀ t, P t → P (body t).1) (hs : P s) : P (s.request row p payload body) := by
  have hw : P (s.enterWorking p) := hports _ _ ⟨_, rfl, rfl, rfl, rfl⟩ hs
  rcases State.request_cases row p payload body s with h | ⟨r, h⟩ | ⟨_, h⟩
  · rw [h]; exact hs
  · rw [h]; exact hports _ _ ⟨_, rfl, rfl, rfl, rfl⟩ hs
  · rw [h]; exact hports _ _ ⟨_, rfl, rfl, rfl, rfl⟩ (hbody _ hw)

/-! ## The delivery of a long operation's result (R183) -/

/-- All that a delivery can do: nothing, or DONE in the slot of the requesting port with OP_DONE raised. -/
theorem State.deliver_cases (p : Port) (op : Nat) (status : Status) (data : List Byte) (s : State) :
    ((∃ kind, (s.port p).slot = .running kind op ∧
        s.deliver p op status data = (s.modPort p (fun q => { q with slot := .done kind status data })).raise .opDone) ∨
      s.deliver p op status data = s) := by
  unfold State.deliver
  split
  · next kind op' h =>
    split
    · next heq => subst heq; exact .inl ⟨kind, h, rfl⟩
    · exact .inr rfl
  · exact .inr rfl

theorem State.deliver_frame (p : Port) (op : Nat) (status : Status) (data : List Byte) (s : State) :
    Frame [.ports] s (s.deliver p op status data) := by
  rcases State.deliver_cases p op status data s with ⟨kind, _, h⟩ | h <;> rw [h]
  · intro b hb; cases b <;> first | rfl | simp at hb
  · exact Frame.refl _ _

/-! ## Offers to the Commit Queue (R16, R160) -/

/-- All that the offer of a CHARGE_REJECT or HEAT_TRIP record can do. -/
theorem State.offerRecord_cases (r : HistRecord) (s : State) :
    (s.depth ≤ Config.commitRejectDepth ∧
      s.offerRecord r = { s with commit := { s.commit with records := s.commit.records ++ [r] } }) ∨
    (Config.commitRejectDepth < s.depth ∧
      s.offerRecord r
        = State.raise .dropped { s with commit := { s.commit with dropped := satInc Config.max16 s.commit.dropped } }) := by
  unfold State.offerRecord
  by_cases h : s.depth ≤ Config.commitRejectDepth
  · exact .inl ⟨h, if_pos h⟩
  · exact .inr ⟨Nat.lt_of_not_le h, if_neg h⟩

theorem State.offerRecord_frame (r : HistRecord) (s : State) : Frame [.commit, .ports] s (s.offerRecord r) := by
  rcases State.offerRecord_cases r s with ⟨_, h⟩ | ⟨_, h⟩ <;> rw [h] <;>
    (intro b hb; cases b <;> first | rfl | simp at hb)

/-- An offer leaves at most 8 records where it adds one. -/
theorem State.offerRecord_depth (r : HistRecord) (s : State) (h : s.depth ≤ Config.commitPlaces) :
    (s.offerRecord r).depth ≤ Config.commitPlaces := by
  rcases State.offerRecord_cases r s with ⟨h1, h2⟩ | ⟨_, h2⟩ <;> rw [h2]
  · simp only [State.depth, Config.commitRejectDepth, Config.commitPlaces] at *
    simp only [List.length_append, List.length_singleton]
    omega
  · exact h

theorem State.offerRecord_onlyNotices (r : HistRecord) (s : State) : OnlyNotices s (s.offerRecord r) := by
  rcases State.offerRecord_cases r s with ⟨_, h⟩ | ⟨_, h⟩ <;> rw [h]
  · exact OnlyNotices.refl s
  · exact OnlyNotices.of_raise _ rfl

/-- All that the offer passes can do, as a chain of admissions (R16): a property kept by every admission that finds a free
place is kept by the passes. -/
theorem State.offerPasses_keeps (P : State → Prop)
    (h : ∀ s d shot, s.offerTarget = some d → (s.entry d).shot = some shot → s.depth < Config.commitPlaces → P s →
      P (s.admitShot d shot)) (n : Nat) (s : State) (hs : P s) : P (s.offerPasses n) := by
  induction n generalizing s with
  | zero => exact hs
  | succ n ih =>
    unfold State.offerPasses
    split
    · exact hs
    · next d hd =>
      split
      · exact hs
      · next shot hshot =>
        split
        · next hlt => exact ih _ (h s d shot hd hshot hlt hs)
        · exact hs

theorem State.admitShot_frame (d : Daylight) (shot : Shot) (s : State) :
    Frame [.board, .commit, .ports] s (s.admitShot d shot) := by
  intro b hb; cases b <;> first | rfl | simp at hb

theorem State.offerPasses_frame (n : Nat) (s : State) : Frame [.board, .commit, .ports] s (s.offerPasses n) :=
  State.offerPasses_keeps (fun t => Frame [.board, .commit, .ports] s t)
    (fun t d shot _ _ _ h => h.trans (State.admitShot_frame d shot t)) n s (Frame.refl _ _)

theorem State.admitShot_onlyNotices (d : Daylight) (shot : Shot) (s : State) : OnlyNotices s (s.admitShot d shot) :=
  OnlyNotices.of_raise .daylight rfl

theorem State.offerPasses_onlyNotices (n : Nat) (s : State) : OnlyNotices s (s.offerPasses n) :=
  State.offerPasses_keeps (fun t => OnlyNotices s t)
    (fun t d shot _ _ _ h => h.trans (State.admitShot_onlyNotices d shot t)) n s (OnlyNotices.refl s)

/-- The offer passes never fill the Commit Queue past its 12 places. -/
theorem State.offerPasses_depth (n : Nat) (s : State) (h : s.depth ≤ Config.commitPlaces) :
    (s.offerPasses n).depth ≤ Config.commitPlaces := by
  refine State.offerPasses_keeps (fun t => t.depth ≤ Config.commitPlaces) ?_ n s h
  intro t d shot _ _ hlt _
  show (t.commit.records ++ [_]).length ≤ _
  rw [List.length_append]
  exact hlt

/-! ## The application at idle (R149) -/

/-- All that the application at idle can do. -/
theorem State.settleCell_cases (s : State) :
    (s.cellIdle = true ∧ (s.recipes.copy.isSome = true ∨ s.recipes.selection.isSome = true) ∧
      s.settleCell = (s.applyCopy.applySelection.settingsChanged).raise .recipeApplied) ∨
    s.settleCell = s := by
  unfold State.settleCell
  split
  · next h => simp only [Bool.and_eq_true, Bool.or_eq_true] at h; exact .inl ⟨h.1, h.2, rfl⟩
  · exact .inr rfl

theorem State.applyCopy_frame (s : State) : Frame [.recipes] s s.applyCopy := by
  unfold State.applyCopy
  split
  · exact Frame.refl _ _
  · next c _ =>
    cases s.recipes.active <;> (intro b hb; cases b <;> first | rfl | simp at hb)

theorem State.applySelection_frame (s : State) : Frame [.recipes] s s.applySelection := by
  unfold State.applySelection
  split
  · exact Frame.refl _ _
  · intro b hb; cases b <;> first | rfl | simp at hb

theorem State.settleCell_frame (s : State) : Frame [.recipes, .ports] s s.settleCell := by
  rcases State.settleCell_cases s with ⟨_, _, h⟩ | h <;> rw [h]
  · have h1 : Frame [.recipes, .ports] s s.applyCopy := (State.applyCopy_frame s).mono (by simp)
    have h2 : Frame [.recipes, .ports] s.applyCopy s.applyCopy.applySelection :=
      (State.applySelection_frame _).mono (by simp)
    refine (h1.trans h2).trans ?_
    intro b hb; cases b <;> first | rfl | simp at hb
  · exact Frame.refl _ _

theorem State.settleCell_onlyNotices (s : State) : OnlyNotices s s.settleCell := by
  rcases State.settleCell_cases s with ⟨_, _, h⟩ | h <;> rw [h]
  · have h1 : (s.applyCopy.applySelection).ports = s.ports :=
      ((State.applySelection_frame s.applyCopy) .ports (by simp)).trans ((State.applyCopy_frame s) .ports (by simp))
    exact OnlyNotices.of_raise _ h1
  · exact OnlyNotices.refl s

/-- With no copy and no selection pending nothing is applied. -/
theorem State.settleCell_none (s : State) (hc : s.recipes.copy = none) (hs : s.recipes.selection = none) :
    s.settleCell = s := by
  simp [State.settleCell, hc, hs]

theorem State.settleBoard_frame (before s : State) :
    Frame [.board, .commit, .recipes, .ports] s (State.settleBoard before s) := by
  have h1 : Frame [.board, .commit, .recipes, .ports] s (s.offerPasses 4) := (State.offerPasses_frame 4 s).mono (by simp)
  unfold State.settleBoard
  refine h1.trans ?_
  refine Frame.trans ?_ ((State.settleCell_frame _).mono (by simp))
  rcases State.raiseOnset_cases .commitBlocked before.commitBlocked (s.offerPasses 4).commitBlocked (s.offerPasses 4)
    with ⟨_, _, h⟩ | h <;> rw [h]
  · intro b hb; cases b <;> first | rfl | simp at hb
  · exact Frame.refl _ _

theorem State.settleBoard_onlyNotices (before s : State) : OnlyNotices s (State.settleBoard before s) := by
  unfold State.settleBoard
  refine (State.offerPasses_onlyNotices 4 s).trans (OnlyNotices.trans ?_ (State.settleCell_onlyNotices _))
  rcases State.raiseOnset_cases .commitBlocked before.commitBlocked (s.offerPasses 4).commitBlocked (s.offerPasses 4)
    with ⟨_, _, h⟩ | h <;> rw [h]
  · exact OnlyNotices.of_raise _ rfl
  · exact OnlyNotices.refl _

/-! ## The window clock (R47) -/

@[simp] theorem Window.startDue_iff (w : Window) : w.startDue = true ↔ w.untilStart = 0 := by simp [Window.startDue]

@[simp] theorem Window.countSecond_untilStart (w : Window) : w.countSecond.untilStart = w.untilStart - 1 := rfl
@[simp] theorem Window.countSecond_length (w : Window) : w.countSecond.length = w.length := rfl
@[simp] theorem Window.countSecond_phase (w : Window) : w.countSecond.phase = w.phase := rfl
@[simp] theorem Window.countSecond_onTime (w : Window) : w.countSecond.onTime = w.onTime := rfl
@[simp] theorem Window.countSecond_cut (w : Window) : w.countSecond.cut = w.cut := rfl
@[simp] theorem Window.countSecond_blocked (w : Window) : w.countSecond.blocked = w.blocked := rfl
@[simp] theorem Window.countSecond_pending (w : Window) : w.countSecond.pending = w.pending := rfl

@[simp] theorem State.restartWindow_untilStart (s : State) : s.restartWindow.window.untilStart = s.window.length := rfl
@[simp] theorem State.restartWindow_length (s : State) : s.restartWindow.window.length = s.window.length := rfl
@[simp] theorem State.restartWindow_phase (s : State) : s.restartWindow.window.phase = 0 := rfl

end Sys2Proof.Machine
end

