-- ==== Sys2Proof/Laws/Demould.lean ====
section
/-! SUPPORT. The shared operations of the ejectors, said once: which blocks they touch, that a port gets at most new notices,
and what a property needs to survive the Arbiter's grants. -/

namespace Sys2Proof.Machine

/-- The blocks that an ejector step can touch. -/
def ejectorBlocks : List Block := [.board, .demould, .arbiter, .ports]

/-- Two states whose other blocks agree, and whose ports differ at most in notices. -/
def EjectorStep (s t : State) : Prop := Frame ejectorBlocks s t ∧ OnlyNotices s t

theorem EjectorStep.refl (s : State) : EjectorStep s s := ⟨Frame.refl _ _, OnlyNotices.refl s⟩

theorem EjectorStep.trans {s t u : State} (h : EjectorStep s t) (h' : EjectorStep t u) : EjectorStep s u :=
  ⟨h.1.trans h'.1, h.2.trans h'.2⟩

theorem State.modEjector_step (d : Daylight) (f : Ejector → Ejector) (s : State) : EjectorStep s (s.modEjector d f) := by
  refine ⟨?_, fun _ => rfl⟩
  intro b hb; cases b <;> first | rfl | simp [ejectorBlocks] at hb

theorem State.modShot_step (d : Daylight) (f : Shot → Shot) (s : State) : EjectorStep s (s.modShot d f) := by
  refine ⟨?_, fun _ => rfl⟩
  intro b hb; cases b <;> first | rfl | simp [ejectorBlocks] at hb

theorem State.setFailed_step (d : Daylight) (x : Bool) (s : State) : EjectorStep s (s.setFailed d x) := by
  unfold State.setFailed
  exact (State.modEjector_step ..).trans (State.modShot_step ..)

theorem State.setHolder_step (d : Daylight) (x : Bool) (s : State) : EjectorStep s (s.setHolder d x) := by
  refine ⟨?_, fun _ => rfl⟩
  intro b hb; cases b <;> first | rfl | simp [ejectorBlocks] at hb

theorem State.setWaiting_step (d : Daylight) (x : Bool) (s : State) : EjectorStep s (s.setWaiting d x) := by
  refine ⟨?_, fun _ => rfl⟩
  intro b hb; cases b <;> first | rfl | simp [ejectorBlocks] at hb

theorem State.raise_step (k : Notice) (s : State) : EjectorStep s (s.raise k) := by
  refine ⟨?_, State.raise_onlyNotices k s⟩
  intro b hb; cases b <;> first | rfl | simp [ejectorBlocks] at hb

theorem State.enterState_step (d : Daylight) (x : DaylightState) (s : State) : EjectorStep s (s.enterState d x) := by
  refine ⟨?_, OnlyNotices.of_raise _ rfl⟩
  intro b hb; cases b <;> first | rfl | simp [ejectorBlocks] at hb

theorem State.closeGrant_step (s : State) : EjectorStep s s.closeGrant := by
  unfold State.closeGrant
  split
  · exact EjectorStep.refl s
  · split
    · exact EjectorStep.refl s
    · refine ⟨?_, fun _ => rfl⟩
      intro b hb; cases b <;> first | rfl | simp [ejectorBlocks] at hb

theorem State.endSequence_step (d : Daylight) (s : State) : EjectorStep s (s.endSequence d) := by
  unfold State.endSequence
  exact ((((State.modEjector_step ..).trans (State.setHolder_step ..)).trans (State.setWaiting_step ..)).trans
    (State.enterState_step ..)).trans (State.closeGrant_step _)

theorem State.strokeGood_step (d : Daylight) (s : State) : EjectorStep s (s.strokeGood d) := by
  unfold State.strokeGood
  dsimp only
  split
  · exact ((State.modEjector_step ..).trans (State.setFailed_step ..)).trans (State.endSequence_step ..)
  · exact (State.modEjector_step ..).trans (State.setFailed_step ..)

theorem State.enterForward_step (d : Daylight) (s : State) : EjectorStep s (s.enterForward d) := by
  unfold State.enterForward
  dsimp only
  split
  · exact (((State.modEjector_step ..).trans (State.modShot_step ..)).trans (State.setFailed_step ..)).trans
      (State.strokeGood_step ..)
  · exact ((State.modEjector_step ..).trans (State.modShot_step ..)).trans (State.setFailed_step ..)

theorem State.homeReturn_step (d : Daylight) (s : State) : EjectorStep s (s.homeReturn d) := by
  unfold State.homeReturn
  split
  · exact State.enterForward_step ..
  · exact State.endSequence_step ..

theorem State.strokeFailed_step (d : Daylight) (s : State) : EjectorStep s (s.strokeFailed d) := by
  unfold State.strokeFailed
  dsimp only
  have h1 (s1 : State) : EjectorStep s1 (if s1.home d then s1.homeReturn d else s1) := by
    split
    · exact State.homeReturn_step ..
    · exact EjectorStep.refl _
  split
  · exact (((State.modEjector_step ..).trans (State.setFailed_step ..)).trans (State.modShot_step ..)).trans (h1 _)
  · exact ((State.modEjector_step ..).trans (State.setFailed_step ..)).trans (h1 _)

theorem State.returnFailed_step (d : Daylight) (s : State) : EjectorStep s (s.returnFailed d) := by
  unfold State.returnFailed
  exact ((State.modShot_step ..).trans (State.raise_step ..)).trans (State.endSequence_step ..)

theorem State.endTest_step (d : Daylight) (r : TestResult) (s : State) : EjectorStep s (s.endTest d r) := by
  unfold State.endTest
  exact ((State.modEjector_step ..).trans (State.setHolder_step ..)).trans (State.setWaiting_step ..)

theorem State.testStrokeGood_step (d : Daylight) (s : State) : EjectorStep s (s.testStrokeGood d) := by
  unfold State.testStrokeGood
  dsimp only
  split
  · exact (State.modEjector_step ..).trans (State.endTest_step ..)
  · exact State.modEjector_step ..

theorem State.testForward_step (d : Daylight) (s : State) : EjectorStep s (s.testForward d) := by
  unfold State.testForward
  dsimp only
  split
  · exact (State.modEjector_step ..).trans (State.testStrokeGood_step ..)
  · exact State.modEjector_step ..

theorem State.handSlot_step (d : Daylight) (s : State) : EjectorStep s (s.handSlot d) := by
  unfold State.handSlot
  split
  · exact State.enterForward_step ..
  · split
    · exact State.testForward_step ..
    · exact EjectorStep.refl s

/-- What a property needs to survive the Arbiter's grants (R135): each single grant to the lowest waiting daylight, made
while the holders are fewer than the configured count. -/
theorem State.grantSlots_keeps (P : State → Prop)
    (h : ∀ s d rest, s.arbiter.waiting.members = d :: rest → s.arbiter.held < s.arbiter.count → P s →
      P (((s.setWaiting d false).setHolder d true).handSlot d)) (n : Nat) (s : State) (hs : P s) : P (s.grantSlots n) := by
  induction n generalizing s with
  | zero => exact hs
  | succ n ih =>
    unfold State.grantSlots
    split
    · exact hs
    · next d rest hw =>
      split
      · next hlt => exact ih _ (h s d rest hw hlt hs)
      · exact hs

theorem State.arbitrateSlots_step (s : State) : EjectorStep s s.arbitrateSlots :=
  State.grantSlots_keeps (fun t => EjectorStep s t)
    (fun t d _ _ _ ht =>
      ((ht.trans (State.setWaiting_step d false t)).trans (State.setHolder_step d true _)).trans (State.handSlot_step d _))
    4 s (EjectorStep.refl s)

theorem State.each_step {α : Type} (f : α → State → State) (items : List α) (h : ∀ x s, EjectorStep s (f x s)) (s : State) :
    EjectorStep s (s.each items f) :=
  State.each_keeps (fun t => EjectorStep s t) f items (fun x _ t ht => ht.trans (h x t)) s (EjectorStep.refl s)

theorem State.startSequences_step (s : State) : EjectorStep s s.startSequences := by
  unfold State.startSequences
  split
  · refine EjectorStep.trans (State.each_step _ _ (fun d t => ?_) s) (State.arbitrateSlots_step _)
    exact (State.modEjector_step ..).trans (State.setWaiting_step ..)
  · exact EjectorStep.refl s

theorem State.abortSequence_step (d : Daylight) (s : State) : EjectorStep s (s.abortSequence d) := by
  unfold State.abortSequence
  exact (State.modShot_step ..).trans (State.endSequence_step ..)

theorem State.abortEjectors_step (seqs tests : Bool) (s : State) : EjectorStep s (s.abortEjectors seqs tests) := by
  unfold State.abortEjectors
  dsimp only
  generalize (if seqs then s.abortable else []) = ds
  generalize (if tests then s.testing else []) = ts
  split
  · exact EjectorStep.refl s
  · refine EjectorStep.trans (EjectorStep.trans (State.each_step _ ds State.abortSequence_step s) ?_)
      (State.arbitrateSlots_step _)
    exact State.each_step _ ts (fun d t => State.endTest_step d .aborted t) _

theorem State.abortTestOf_step (d : Daylight) (s : State) : EjectorStep s (s.abortTestOf d) := by
  unfold State.abortTestOf
  split
  · exact (State.endTest_step ..).trans (State.arbitrateSlots_step _)
  · exact EjectorStep.refl s

theorem State.onFwd_step (d : Daylight) (s : State) : EjectorStep s (s.onFwd d) := by
  unfold State.onFwd
  split
  · exact (State.strokeGood_step ..).trans (State.arbitrateSlots_step _)
  · split
    · split
      · exact (State.testStrokeGood_step ..).trans (State.arbitrateSlots_step _)
      · exact EjectorStep.refl s
    · exact EjectorStep.refl s

theorem State.onHome_step (d : Daylight) (s : State) : EjectorStep s (s.onHome d) := by
  unfold State.onHome
  split
  · exact (State.homeReturn_step ..).trans (State.arbitrateSlots_step _)
  · split
    · split
      · exact (State.endTest_step ..).trans (State.arbitrateSlots_step _)
      · exact EjectorStep.refl s
    · exact EjectorStep.refl s

theorem State.testTimeout_step (d : Daylight) (s : State) : EjectorStep s (s.testTimeout d) := by
  unfold State.testTimeout
  split
  · exact EjectorStep.refl s
  · split
    · split
      · exact EjectorStep.refl s
      · exact (State.endTest_step ..).trans (State.arbitrateSlots_step _)
      · exact ((State.raise_step ..).trans (State.endTest_step ..)).trans (State.arbitrateSlots_step _)
    · exact EjectorStep.refl s

theorem State.grantDaylight_step (d : Daylight) (s : State) : EjectorStep s (s.grantDaylight d) := by
  unfold State.grantDaylight
  exact (((State.modShot_step ..).trans (State.enterState_step ..)).trans (State.modEjector_step ..)).trans
    (State.setFailed_step ..)

end Sys2Proof.Machine
end

