-- ==== Sys2Proof/Laws/Flash.lean ====
section
/-! SUPPORT. The flash's cells: every operation keeps the canonical form (addresses strictly rising, no byte of 0xFF listed);
a read after a write gives the value written, a write and an erase leave every other address alone. -/

namespace Sys2Proof.Machine

/-- The canonical form, said of all cells at once. -/
theorem cellsWf_iff (cells : List Host.Cell) :
    cellsWf cells = true ↔ (∀ c ∈ cells, c.2 ≠ 0xFF#8) ∧ cells.Pairwise (fun a b => a.1 < b.1) := by
  induction cells with
  | nil => simp [cellsWf]
  | cons c rest ih =>
    cases rest with
    | nil => simp [cellsWf]
    | cons c' rest =>
      simp only [cellsWf, Bool.and_eq_true, bne_iff_ne, ne_eq, decide_eq_true_eq, ih]
      constructor
      · rintro ⟨⟨h1, h2⟩, h3, h4⟩
        refine ⟨?_, ?_⟩
        · intro x hx
          rcases List.mem_cons.mp hx with rfl | hx
          · exact h1
          · exact h3 x hx
        · refine List.pairwise_cons.mpr ⟨?_, h4⟩
          intro x hx
          rcases List.mem_cons.mp hx with rfl | hx
          · exact h2
          · exact Nat.lt_trans h2 ((List.pairwise_cons.mp h4).1 x hx)
      · rintro ⟨h1, h2⟩
        have h3 := List.pairwise_cons.mp h2
        exact ⟨⟨h1 c List.mem_cons_self, h3.1 c' List.mem_cons_self⟩, fun x hx => h1 x (List.mem_cons_of_mem _ hx), h3.2⟩

/-- The cells of consecutive bytes: their addresses lie in the range, none holds 0xFF. -/
theorem cellsFrom_mem (base : Nat) (bytes : List Byte) (c : Host.Cell) (h : c ∈ cellsFrom base bytes) :
    base ≤ c.1 ∧ c.1 < base + bytes.length ∧ c.2 ≠ 0xFF#8 := by
  induction bytes generalizing base with
  | nil => simp [cellsFrom] at h
  | cons b bs ih =>
    unfold cellsFrom at h
    split at h
    · have hi := ih (base + 1) h
      simp only [List.length_cons]
      exact ⟨by omega, by omega, hi.2.2⟩
    · next hb =>
      rcases List.mem_cons.mp h with rfl | h
      · simp only [List.length_cons]
        exact ⟨Nat.le_refl _, by omega, hb⟩
      · have hi := ih (base + 1) h
        simp only [List.length_cons]
        exact ⟨by omega, by omega, hi.2.2⟩

theorem cellsFrom_sorted (base : Nat) (bytes : List Byte) : (cellsFrom base bytes).Pairwise (fun a b => a.1 < b.1) := by
  induction bytes generalizing base with
  | nil => simp [cellsFrom]
  | cons b bs ih =>
    unfold cellsFrom
    split
    · exact ih (base + 1)
    · refine List.pairwise_cons.mpr ⟨?_, ih (base + 1)⟩
      intro c hc
      have := (cellsFrom_mem _ _ c hc).1
      show base < c.1
      omega

/-- A write keeps the canonical form. -/
theorem writeRange_wf (base : Nat) (bytes : List Byte) (cells : List Host.Cell) (h : cellsWf cells = true) :
    cellsWf (writeRange base bytes cells) = true := by
  rw [cellsWf_iff] at h ⊢
  obtain ⟨h1, h2⟩ := h
  unfold writeRange
  refine ⟨?_, ?_⟩
  · intro c hc
    rcases List.mem_append.mp hc with hc | hc
    · rcases List.mem_append.mp hc with hc | hc
      · exact h1 c (List.mem_filter.mp hc).1
      · exact (cellsFrom_mem _ _ c hc).2.2
    · exact h1 c (List.mem_filter.mp hc).1
  · rw [List.pairwise_append, List.pairwise_append]
    refine ⟨⟨h2.filter _, cellsFrom_sorted base bytes, ?_⟩, h2.filter _, ?_⟩
    · intro a ha b hb
      have ha := of_decide_eq_true (List.mem_filter.mp ha).2
      have hb := (cellsFrom_mem _ _ b hb).1
      omega
    · intro a ha b hb
      have hb := of_decide_eq_true (List.mem_filter.mp hb).2
      rcases List.mem_append.mp ha with ha | ha
      · have ha := of_decide_eq_true (List.mem_filter.mp ha).2
        omega
      · have ha := (cellsFrom_mem _ _ a ha).2.1
        omega

/-- An erase keeps the canonical form. -/
theorem eraseRange_wf (base count : Nat) (cells : List Host.Cell) (h : cellsWf cells = true) :
    cellsWf (eraseRange base count cells) = true := by
  rw [cellsWf_iff] at h ⊢
  obtain ⟨h1, h2⟩ := h
  unfold eraseRange
  refine ⟨?_, ?_⟩
  · intro c hc
    rcases List.mem_append.mp hc with hc | hc <;> exact h1 c (List.mem_filter.mp hc).1
  · rw [List.pairwise_append]
    refine ⟨h2.filter _, h2.filter _, ?_⟩
    intro a ha b hb
    have ha := of_decide_eq_true (List.mem_filter.mp ha).2
    have hb := of_decide_eq_true (List.mem_filter.mp hb).2
    omega

theorem Flash.program_wf (sector slot : Nat) (bytes : List Byte) (f : Flash) (h : f.wf = true) :
    (f.program sector slot bytes).wf = true := writeRange_wf _ _ _ h

theorem Flash.erase_wf (sector : Nat) (f : Flash) (h : f.wf = true) : (f.erase sector).wf = true := eraseRange_wf _ _ _ h

theorem Flash.failProgram_wf (n sector slot : Nat) (f : Flash) (h : f.wf = true) :
    (f.failProgram n sector slot).wf = true := Flash.program_wf _ _ _ _ h

theorem Flash.failErase_wf (n sector : Nat) (f : Flash) (h : f.wf = true) : (f.failErase n sector).wf = true :=
  writeRange_wf _ _ _ h

theorem Flash.cutErase_wf (n sector : Nat) (f : Flash) (h : f.wf = true) : (f.cutErase n sector).wf = true :=
  Flash.program_wf _ _ _ _ (Flash.failErase_wf _ _ _ h)

/-- What a failed step leaves keeps the canonical form. -/
theorem failedFlash_wf (op : LinkOp) (h : History) (n : Nat) (f : Flash) (hf : f.wf = true) :
    (failedFlash op h n f).wf = true := by
  cases op with
  | format step =>
    cases step with
    | settingsErase i => exact hf
    | settingsProgram i => exact hf
    | ringErase k => exact Flash.failErase_wf _ _ _ hf
    | header => exact Flash.failProgram_wf _ _ _ _ hf
  | flushProgram => exact Flash.failProgram_wf _ _ _ _ hf
  | sectorErase seq => exact Flash.failErase_wf _ _ _ hf
  | sectorHeader seq => exact Flash.failProgram_wf _ _ _ _ hf
  | portRead p b => exact hf
  | settingsErase i => exact hf
  | settingsProgram i => exact hf

/-- What an abandoned step leaves keeps the canonical form. -/
theorem cutFlash_wf (op : LinkOp) (h : History) (n : Nat) (f : Flash) (hf : f.wf = true) : (cutFlash op h n f).wf = true := by
  cases op with
  | format step =>
    cases step with
    | settingsErase i => exact hf
    | settingsProgram i => exact hf
    | ringErase k => exact Flash.cutErase_wf _ _ _ hf
    | header => exact Flash.program_wf _ _ _ _ hf
  | flushProgram => exact Flash.program_wf _ _ _ _ hf
  | sectorErase seq => exact Flash.cutErase_wf _ _ _ hf
  | sectorHeader seq => exact Flash.program_wf _ _ _ _ hf
  | portRead p b => exact hf
  | settingsErase i => exact hf
  | settingsProgram i => exact hf

theorem reset_flash_wf : State.reset.flash.wf = true := rfl

/-! ## Read after write -/

theorem find_append_none {cells : List Host.Cell} {a : Nat} (h : ∀ c ∈ cells, c.1 ≠ a) :
    cells.find? (fun c => c.1 == a) = none := by
  rw [List.find?_eq_none]
  intro c hc
  simpa using h c hc

/-- Filtering by address does not change what an address that passes reads. -/
theorem find_filter (cells : List Host.Cell) (a : Nat) (keep : Nat → Bool) (h : keep a = true) :
    (cells.filter (fun c => keep c.1)).find? (fun c => c.1 == a) = cells.find? (fun c => c.1 == a) := by
  induction cells with
  | nil => rfl
  | cons c cs ih =>
    by_cases hc : c.1 = a
    · simp [hc, h]
    · by_cases hk : keep c.1 = true
      · simp [hk, hc, ih]
      · simp [hk, hc, ih]

theorem cellsFrom_find (base : Nat) (bytes : List Byte) (i : Nat) (h : i < bytes.length) :
    ((cellsFrom base bytes).find? (fun c => c.1 == base + i)).elim 0xFF#8 (·.2) = bytes[i] := by
  induction bytes generalizing base i with
  | nil => simp at h
  | cons b bs ih =>
    unfold cellsFrom
    cases i with
    | zero =>
      split
      · next hb =>
        rw [find_append_none]
        · simp [hb]
        · intro c hc
          have := (cellsFrom_mem _ _ c hc).1
          omega
      · simp
    | succ i =>
      have hi : i < bs.length := by simpa using h
      have := ih (base + 1) i hi
      have e : base + (i + 1) = base + 1 + i := by omega
      rw [e]
      split
      · simpa using this
      · have hne : ¬ base = base + 1 + i := by omega
        simpa [List.find?_cons, hne] using this

theorem readByte_eq (cells : List Host.Cell) (a : Nat) :
    readByte cells a = (cells.find? (fun c => c.1 == a)).elim 0xFF#8 (·.2) := by
  unfold readByte
  cases cells.find? (fun c => c.1 == a) <;> rfl

/-- A read in the range written gives the byte written. -/
theorem readByte_write (base : Nat) (bytes : List Byte) (cells : List Host.Cell) (i : Nat) (h : i < bytes.length) :
    readByte (writeRange base bytes cells) (base + i) = bytes[i] := by
  rw [readByte_eq, writeRange, List.append_assoc, List.find?_append, find_append_none, Option.none_or,
    List.find?_append, ← cellsFrom_find base bytes i h]
  · cases hf : (cellsFrom base bytes).find? (fun c => c.1 == base + i) with
    | some c => simp
    | none =>
      rw [find_append_none]
      · rfl
      · intro c hc
        have := of_decide_eq_true (List.mem_filter.mp hc).2
        omega
  · intro c hc
    have := of_decide_eq_true (List.mem_filter.mp hc).2
    omega

/-- A read outside the range written gives what it gave before. -/
theorem readByte_write_other (base : Nat) (bytes : List Byte) (cells : List Host.Cell) (a : Nat)
    (h : a < base ∨ base + bytes.length ≤ a) : readByte (writeRange base bytes cells) a = readByte cells a := by
  rw [readByte_eq, readByte_eq, writeRange, List.append_assoc, List.find?_append, List.find?_append]
  have hmid : (cellsFrom base bytes).find? (fun c => c.1 == a) = none := by
    refine find_append_none ?_
    intro c hc
    have := cellsFrom_mem _ _ c hc
    omega
  rw [hmid, Option.none_or]
  rcases h with h | h
  · rw [find_filter cells a (fun x => decide (x < base)) (by simpa using h)]
    cases hf : cells.find? (fun c => c.1 == a) with
    | some c => simp
    | none =>
      rw [find_append_none]
      · rfl
      · intro c hc
        have := of_decide_eq_true (List.mem_filter.mp hc).2
        omega
  · rw [find_filter cells a (fun x => decide (base + bytes.length ≤ x)) (by simpa using h), find_append_none]
    · rfl
    · intro c hc
      have := of_decide_eq_true (List.mem_filter.mp hc).2
      omega

/-- A read in an erased range gives 0xFF. -/
theorem readByte_erase (base count : Nat) (cells : List Host.Cell) (a : Nat) (h : base ≤ a ∧ a < base + count) :
    readByte (eraseRange base count cells) a = 0xFF#8 := by
  rw [readByte_eq, eraseRange, find_append_none]
  · rfl
  · intro c hc
    rcases List.mem_append.mp hc with hc | hc
    · have := of_decide_eq_true (List.mem_filter.mp hc).2
      omega
    · have := of_decide_eq_true (List.mem_filter.mp hc).2
      omega

/-- A read outside an erased range gives what it gave before. -/
theorem readByte_erase_other (base count : Nat) (cells : List Host.Cell) (a : Nat) (h : a < base ∨ base + count ≤ a) :
    readByte (eraseRange base count cells) a = readByte cells a := by
  rw [readByte_eq, readByte_eq, eraseRange, List.find?_append]
  rcases h with h | h
  · rw [find_filter cells a (fun x => decide (x < base)) (by simpa using h)]
    cases hf : cells.find? (fun c => c.1 == a) with
    | some c => simp
    | none =>
      rw [find_append_none]
      · rfl
      · intro c hc
        have := of_decide_eq_true (List.mem_filter.mp hc).2
        omega
  · rw [find_filter cells a (fun x => decide (base + count ≤ x)) (by simpa using h), find_append_none]
    · rfl
    · intro c hc
      have := of_decide_eq_true (List.mem_filter.mp hc).2
      omega

/-! ## Slots: what a program leaves in its slot and in the others (R162, R167, R168) -/

theorem sealSlot_length (bytes : List Byte) : (sealSlot bytes).length = 128 := by
  simp only [sealSlot, crcBytes, u16, zeros, List.length_append, List.length_take, List.length_replicate,
    List.length_cons, List.length_nil]
  omega

/-- A sealed slot is valid unless its 128 bytes read as blank. -/
theorem slotValid_sealSlot (bytes : List Byte) (h : slotBlank (sealSlot bytes) = false) :
    slotValid (sealSlot bytes) = true := by
  have hlen : ((bytes ++ zeros (126 - bytes.length)).take 126).length = 126 := by
    simp only [zeros, List.length_take, List.length_append, List.length_replicate]
    omega
  rw [slotValid, h]
  simp only [sealSlot]
  rw [List.drop_left' hlen, List.take_left' hlen]
  simp

/-- A slot programmed with 128 bytes reads as they are. -/
theorem Flash.slot_program (sector slot : Nat) (bytes : List Byte) (f : Flash) (h : bytes.length = 128) :
    (f.program sector slot bytes).slot sector slot = bytes := by
  refine List.ext_getElem (by simp [Flash.slot, readRange, Config.slotBytes, h]) (fun i _ hi => ?_)
  simp [Flash.slot, readRange, Flash.program, readByte_write _ _ _ i hi]

/-- A program leaves every other slot as it was. -/
theorem Flash.slot_program_other (sector slot sector' slot' : Nat) (bytes : List Byte) (f : Flash)
    (h : bytes.length = 128) (hne : sector' * 512 + slot' ≠ sector * 512 + slot) :
    (f.program sector slot bytes).slot sector' slot' = f.slot sector' slot' := by
  refine List.map_congr_left (fun i hi => readByte_write_other _ _ _ _ ?_)
  have hi := List.mem_range.mp hi
  simp only [slotAddress, sectorAddress, Config.sectorBytes, Config.slotBytes] at hi ⊢
  omega

end Sys2Proof.Machine
end

