-- ==== Sys2Proof/Tests/Slice0.lean ====
section
/-! SUPPORT. Tests. The ill-formed commands that the well-formedness checks refuse; request frames written out from the spec;
steps whose expected results are the spec's worked cases; and for every statement with hypotheses a witness that meets them. -/

namespace Sys2Proof.Tests

open Sys2Proof.Machine

/-! ## Ill-formed commands -/

theorem test_wf_payload_192 : (Instr.clockRead .p1 (List.replicate 192 0#8)).wf = true := by decide +kernel
theorem test_wf_refuses_payload_193 : (Instr.clockRead .p1 (List.replicate 193 0#8)).wf = false := by decide +kernel
theorem test_wf_refuses_raw_out_of_range :
    (Instr.sampleArrival 8388608 true).wf = false ∧ (Instr.sampleArrival (-8388609) true).wf = false := by decide
theorem test_wf_refuses_saturated_inner_value : (Instr.sampleArrival 8388606 true).wf = false := by decide
theorem test_wf_saturated_end_values :
    (Instr.sampleArrival 8388607 true).wf = true ∧ (Instr.sampleArrival (-8388608) true).wf = true := by decide
theorem test_wf_refuses_no_line : (Instr.debouncedLevelChange []).wf = false := by decide
theorem test_wf_refuses_line_twice : (Instr.debouncedLevelChange [.modeA, .modeA]).wf = false := by decide
theorem test_wf_refuses_known_code_as_unknown : (Instr.unknownCommand .p1 0x54#8).wf = false := by decide
theorem test_wf_unknown_code : (Instr.unknownCommand .p1 0x55#8).wf = true := by decide

/-! ## Request frames: code, length, payload, CRC-8 (R180, R189), one for each family; the first is the worked transaction of
section 12.2, the CRC bytes of the others are worked out outside the model from R180's polynomial -/

theorem test_frame_status_read : decodeFrame .p1 [0x01#8, 0x00#8, 0x15#8] = some (.daylightStatus .p1 []) := by
  decide +kernel
theorem test_frame_bad_crc : decodeFrame .p1 [0x01#8, 0x00#8, 0x16#8] = some (.frameError .p1 .crc) := by decide +kernel
theorem test_frame_length_193 : decodeFrame .p1 [0x01#8, 0xC1#8] = some (.frameError .p1 .length) := by decide
theorem test_frame_press : decodeFrame .p1 [0x20#8, 0x02#8, 0x03#8, 0x01#8, 0x20#8]
    = some (.declare .p1 [0x03#8, 0x01#8]) := by decide +kernel
theorem test_frame_charge : decodeFrame .p2 [0x34#8, 0x01#8, 0x04#8, 0x43#8]
    = some (.chargeBegin .p2 [0x04#8]) := by decide +kernel
theorem test_frame_supervisor : decodeFrame .p3 [0x45#8, 0x04#8, 0x10#8, 0x27#8, 0x00#8, 0x00#8,
    0x46#8] = some (.budgetSet .p3 [0x10#8, 0x27#8, 0x00#8, 0x00#8]) := by
  decide +kernel
theorem test_table_word_none : decodeTableWord 8 1 = none := rfl

/-! ## States to start from -/

/-- The state a command answers. -/
def after (c : Instr) (s : State) : State :=
  match exec c s with
  | .next t => t
  | .fault _ => s
  | .refused _ => s

/-- A port in REQUEST with a role. -/
def asking (p : Port) (role : Role) (s : State) : State :=
  { s with ports := s.ports.set p { s.port p with recv := .request, role := role } }

/-- A recipe of two variants, the shorter a prefix of the longer, under prefix hold. -/
def benchRecipe : Recipe :=
  { name := List.replicate 8 0x41#8
    heat := { platen := ⟨1550, 1550, 1550, 1550, 1550⟩, bias := .all 0, readyBand := 50, overBand := 150 }
    cure := { tref := 1500, step := 100, tmin := 1300, target := 60, dwell := 3, limit := 4 }
    eject := 6
    layup :=
      { variants := ⟨⟨true, [⟨1200, 15⟩, ⟨800, 10⟩]⟩, ⟨true, [⟨1200, 15⟩, ⟨800, 10⟩, ⟨400, 10⟩]⟩, ⟨false, []⟩⟩
        threshold := 300, bandMin := 1000, bandMax := 4000, driftLimit := 20, gapLimit := 8, recoveryLimit := 20
        life := 1800, prefixHold := true } }

/-- A charge record for a daylight. -/
def benchCharge (d : Daylight) : ChargeRecord :=
  { number := 7, daylight := d, slot := .s4, version := 3, variant := some .v1, pieces := [1200, 800], total := 2000
    tare := some 0, drift := some 0, wrongCount := 0, start := ⟨5, false⟩, accept := some ⟨6, false⟩
    expiry := some ⟨1806, false⟩, reason := none, rejectTime := none }

/-- A shot under that recipe. -/
def benchShot (number : Nat) (d : Daylight) : Shot :=
  { number := number, daylight := d, recipe := some (.s4, 3), heatRevision := 0, charge := some (benchCharge d)
    load := some ⟨9, false⟩, cureStart := none, cured := none, grant := none, takeout := none, cure := none
    lateLoad := false, heatRevised := false, notHome := false, outcome := none, attempts := 0, strokeFailed := false, dropped := 0 }

/-- A line past its debounce at a level. -/
def benchLine (level : Bool) : LineState := { raw := level, debounced := some level, interval := none, level := level }

/-- A press in RUN with the mould open, the ejectors home, an active recipe and every zone at its setpoint, at a second boundary
that ends a window. -/
def bench : State :=
  { State.reset with
    lines :=
      { line :=
          { mouldClosed := benchLine false, mouldOpen := benchLine true, ejectFwd := .all (benchLine false)
            ejectHome := .all (benchLine true), heatInhibit := benchLine false, modeA := benchLine true
            modeB := benchLine true }
        qualify := none, mode := .run
        faults := { modeIllegal := false, mouldPair := false, ejectPair := .all false }
        hold := { stop := false, inhibit := false } }
    channels := .all { trim := 0, history := [.valid 1550, .valid 1550, .valid 1550, .valid 1550], value := .valid 1550
                       formed := true }
    window := { State.reset.window with untilStart := 0 }
    recipes := { State.reset.recipes with
      slots := State.reset.recipes.slots.set .s4 { record := some benchRecipe, version := 3 }, active := some .s4 }
    queue := [{ record := benchCharge .d1, age := 2, life := 1800 }]
    board := { State.reset.board with entries := .all { state := .vacant, permit := none, shot := none } } }

/-- A daylight of a state in a state, with a shot. -/
def holding (d : Daylight) (state : DaylightState) (shot : Option Shot) (s : State) : State :=
  s.modEntry d (fun _ => { state := state, permit := none, shot := shot })

/-- The bench with a press mode. -/
def benchIn (mode : Mode) : State :=
  { bench with lines := { bench.lines with mode := mode, hold := { stop := mode == .stop, inhibit := false } } }

/-- The cure fields of a shot that has cured for some seconds. -/
def benchCure (index seconds : Nat) : ShotCure :=
  { index := index, target := 60, seconds := seconds, paused := 0, longest := 0, trips := 0, extremes := .all none }

/-- Daylight 1 CURING with cure fields. -/
def curing (c : ShotCure) : State := holding .d1 .curing (some { benchShot 1 .d1 with cure := some c }) bench

/-! ## Steps against the worked cases of the spec -/

/-- Section 3.9: trim code +7; 3996 becomes 4000, 4003 is OVERRANGE, 3960 becomes 3995. -/
theorem test_trim_near_the_top : classify 7 (.level 3996) = .valid 4000 ∧ classify 7 (.level 4003) = .overrange ∧
    classify 7 (.level 3960) = .valid 3995 := by decide
/-- Section 3.8: the mean of 1620, 1600, 1600, 1600 is 1605. -/
theorem test_second_value : secondValue [.valid 1620, .valid 1600, .valid 1600, .valid 1600] = .valid 1605 := by decide
/-- Section 4.11, window starts 1, 2 and 6. -/
theorem test_pi_computation :
    (let z : ZoneControl := { ZoneControl.reset 32 4 10 with integ := 0 }
    ((z.compute 1550 900).integ, (z.compute 1550 900).unclamped, (z.compute 1550 900).request) = (2000, 1125, 1000) ∧
    (({ z with integ := 2000, heldHigh := true } : ZoneControl).compute 1550 1080).unclamped = 1065 ∧
    (({ z with integ := 2240 } : ZoneControl).compute 1550 1552).request = 135) := by decide
/-- R47: the first window start falls at the first second boundary, after its values, and the next one W = 4 boundaries later; the
tick after the boundary queues it. -/
theorem test_window_clock :
    (let s : State := { State.reset with periods := 4 }
    let t := after .windowStart (after .secondBoundary s)
    (after .windowStart s = s ∧ (after .secondBoundary s).window.untilStart = 0 ∧ t.window.untilStart = 4) ∧
      (after .secondBoundary { t with periods := 4 }).window.untilStart = 3 ∧ s.tick.pending = [] ∧
      (after .secondBoundary s).tick.pending = [.windowStart]) := by decide +kernel
/-- Section 4.10: of 60000 available against a demand of 64800, requests of 1000, 800 and 300 are granted 925, 740 and 277. -/
theorem test_grants : grantedDuty 60000 64800 1000 = 925 ∧ grantedDuty 60000 64800 800 = 740 ∧
    grantedDuty 60000 64800 300 = 277 := by decide
/-- Section 6.9, with Tref 1800 and H 150. -/
theorem test_rate_factor : rateFactor 2400 1800 150 = 4096 ∧ rateFactor 2399 1800 150 = 4082 ∧
    rateFactor 1799 1800 150 = 255 ∧ rateFactor 1649 1800 150 = 127 ∧ rateFactor 600 1800 150 = 1 ∧
    rateFactor 599 1800 150 = 0 := by decide
/-- Section 7.7: zero 120000 and span 500. -/
theorem test_weight_of_a_sample : toGrams 120000 500 1430000 = 9994 ∧ toGrams 120000 500 110000 = -76 := by decide
/-- R186: after 4294967295 the shop clock is 0 and the uptime stays. -/
theorem test_clock_wraps :
    (after .clockSecond { State.reset with clock := ⟨4294967295, true, 4294967295⟩ }).clock = ⟨0, true, 4294967295⟩ := by
  decide
/-- R51, R55, R58, section 4.12: with the next budget 20000 and zone 8 next FROZEN at 12 × 700, a manual duty of 1000 for zone 9
is clamped to 966. -/
theorem test_manual_duty_clamped :
    (let s := { State.reset with
      budget := { State.reset.budget with inForce := 30000, pending := some 20000 }
      zones := ((Ten.all { ZoneControl.reset 32 4 12 with duty := 0 }).set .z8
        { ZoneControl.reset 32 4 12 with duty := 700, pendingMode := some .frozen }).set .z9
        { ZoneControl.reset 32 4 12 with pendingMode := some .manual, shadow := some 900, shadowPending := true } }
    s.limitedDuty .z9 1000 = 966) := by decide
/-- R7: a load done of a permitted daylight opens shot 1 and takes the charge. -/
theorem test_load_done :
    (let t := after (.loadDone .p2 [1#8]) (asking .p2 .charge (holding .d1 .loadPermitted none bench))
    (t.entry .d1).state = .loaded ∧ t.shotNumber .d1 = some 1 ∧ t.queue = [] ∧ t.board.nextShot = 2) := by decide
/-- R93, R14: an index of 256 × 60 with the dwell reached cures the shot. -/
theorem test_cure_completes :
    ((after .perSecondAccounting (curing (benchCure 15200 4))).entry .d1).state = .cured ∧
      ((after .perSecondAccounting (curing (benchCure 1000 4))).entry .d1).state = .curing := by decide
/-- R132 to R136: with two slots, the lower two of three CURED daylights take their valves on. -/
theorem test_demould_takes_two_slots :
    (let s := holding .d1 .cured (some (benchShot 1 .d1)) (holding .d2 .cured (some (benchShot 2 .d2))
      (holding .d4 .held (some (benchShot 3 .d4)) bench))
    let t := after (.demouldRequest .p1 []) (asking .p1 .press s)
    ((t.ejector .d1).valve, (t.ejector .d2).valve, (t.ejector .d4).valve, t.waits .d4) = (true, true, false, true)) := by
  decide
/-- Section 11.10: a HEAT_TRIP offered at depth 7 is admitted, a CHARGE_REJECT at depth 8 is dropped and counted. -/
theorem test_offers_at_depth_7_and_8 :
    (let r : HistRecord := .chargeReject (benchCharge .d1)
    let s : State := { bench with commit := { records := List.replicate 7 r, dropped := 0 } }
    (s.offerRecord r).depth = 8 ∧ ((s.offerRecord r).offerRecord r).depth = 8 ∧
      ((s.offerRecord r).offerRecord r).commit.dropped = 1) := by decide

/-! ## Witnesses: for every statement with hypotheses, states and operands that meet them, clause by clause -/

theorem witness_StepRunsFrontCommand :
    ({ bench with pending := [.clockSecond, .windowStart] } : State).pending = .clockSecond :: [.windowStart] := rfl

/-- A port that owes an answer OK, in a receive state, with bytes clocked in it. -/
def owing (recv : Receive) (clocked : Nat) : PortState :=
  { bench.port .p1 with recv := recv, response := some ⟨.ok, 0, [7#8]⟩, clocked := clocked }

theorem witness_EmptyQueuePassesOneMillisecond :
    bench.pending = [] ∧ State.reset.lines.qualify = some 500 ∧ (owing .working 62).response = some ⟨.ok, 0, [7#8]⟩ ∧
      (false || decide (63 ≤ (owing .working 62).clocked)) = false ∧
      (false || decide (63 ≤ (owing .working 63).clocked)) = true ∧ (owing .response 6).recv = .response := by decide

/-- R180: the response begins with the 64th byte at the latest; an answer OK of one payload byte is six bytes and its CRC-8, the
last of which leaves the port in AFTER, where it returns 0xFF. -/
theorem test_response_bytes :
    ((owing .working 62).clockByte false).recv = .working ∧ ((owing .working 63).clockByte false).recv = .response ∧
      (owing .working 0).returned true = some 0xA5#8 ∧ (owing .response 3).returned false = some 1#8 ∧
      (owing .response 5).returned false = some 7#8 ∧ ((owing .response 5).clockByte false).recv = .response ∧
      ((owing .response 6).clockByte false).recv = .after ∧ (owing .after 7).returned false = some 0xFF#8 := by
  decide +kernel

theorem witness_CommandsLeaveTheQueueAndTheRoles :
    ∃ t, exec .clockSecond bench = .next t ∧ ∀ straps memory, Instr.clockSecond ≠ .deviceReset straps memory :=
  ⟨_, rfl, by simp⟩

/-- A shot record's slot whose number takes one byte and whose fields else are 0x00. -/
def slotOfShot (number : Nat) : List Byte := sealSlot (u8 0x01 ++ zeros 7 ++ u32 number)

/-- A flash with a ring of two sectors, the head of sequence 0 with a SHOT of number 4; sector 0 as given. -/
def ringed (settings : SettingsSector) : State :=
  let erased : Flash := { settings := settings, cells := [] }
  { bench with flash := (erased.program 1 0 (headerBytes 2 0 0)).program 1 1 (slotOfShot 4) }

/-- The default image with a ring size stored. -/
def ringImage (ring : Nat) : SettingsImage := { defaultImage with ringSize := some ring, shotBase := 2 }

theorem ringed_header (x : SettingsSector) : (ringed x).flash.slot 1 0 = headerBytes 2 0 0 :=
  (Flash.slot_program_other 1 1 1 0 (slotOfShot 4) _ (sealSlot_length _) (by decide)).trans
    (Flash.slot_program 1 0 (headerBytes 2 0 0) _ (sealSlot_length _))

theorem ringed_shot (x : SettingsSector) : (ringed x).flash.slot 1 1 = slotOfShot 4 :=
  Flash.slot_program 1 1 _ _ (sealSlot_length _)

theorem witness_DeviceResetWithoutImageLoadsDefaults :
    (some 2 : Option Nat).getD 0 < 3 ∧ ¬ (some 3 : Option Nat).getD 0 < 3 ∧
      (ringed (.image (ringImage 2))).flash.settings = .image (ringImage 2) ∧ (ringImage 2).ringSize = some 2 ∧
      (∀ i, (ringed .blank).flash.settings ≠ .image i) ∧ slotValid ((ringed .blank).flash.slot 1 0) = true ∧
      byteAt ((ringed .blank).flash.slot 1 0) 0 = 0x10 ∧ byteAt ((ringed .blank).flash.slot 1 0) 1 = 2 ∧
      field ((ringed .blank).flash.slot 1 0) 4 4 = 0 ∧ field ((ringed .blank).flash.slot 1 0) 8 4 = 0 ∧ 0 % 2 + 1 = 1 ∧
      2 + 1 ≤ min 65535 ((some 3 : Option Nat).getD 0) ∧ min 65535 ((some 3 : Option Nat).getD 0) < 3 + 1 ∧
      slotValid ((ringed .blank).flash.slot 1 1) = true ∧ byteAt ((ringed .blank).flash.slot 1 1) 0 = 0x01 ∧
      field ((ringed .blank).flash.slot 1 1) 8 4 = 4 ∧ bench.flash.header 1 = none := by
  rw [ringed_header, ringed_shot]
  refine ⟨by decide, by decide, rfl, rfl, fun i h => SettingsSector.noConfusion h,
    slotValid_sealSlot _ (by decide +kernel), ?_, ?_, ?_, ?_, by decide, by decide, by decide,
    slotValid_sealSlot _ (by decide +kernel), ?_, ?_, ?_⟩ <;> decide +kernel

theorem witness_RequestFrameRoundTrip : (Instr.noticeMaskWrite .p2 [1#8, 2#8, 3#8, 4#8]).wf = true ∧
    (encodeFrame (.noticeMaskWrite .p2 [1#8, 2#8, 3#8, 4#8])).isSome = true := by decide +kernel

theorem witness_FaultyFramesAreRecognised :
    192 < (0xC1#8).toNat ∧ (0xC0#8).toNat ≤ 192 ∧ (List.replicate 192 0#8).length ≤ (0xC0#8).toNat ∧
      ([7#8] : List Byte).length = (1#8).toNat ∧ (0#8 : Byte) ≠ crc8 [1#8, 1#8, 7#8] ∧ unknownCode 0x55#8 = true := by
  decide +kernel

theorem witness_ChipSelectBeginsAndEndsTransactions :
    (bench.port .p1).selected = false ∧ ((after (.chipSelectAssert .p1) bench).port .p1).selected = true := by decide

theorem witness_FrameErrorsAndUnknownCodesAreAnswered :
    ((asking .p1 .press bench).port .p1).recv = .request ∧ (bench.port .p1).recv ≠ .request := by decide

theorem witness_EveryRequestChecksRoleThenLength :
    requestParts (.drain .p1 [1#8]) = some (Summary.drain, .p1, [1#8]) ∧
      ((asking .p1 .press bench).port .p1).role ∉ Summary.drain.roles ∧
      ((asking .p1 .supervisor bench).port .p1).role ∈ Summary.drain.roles ∧
      ([1#8] : List Byte).length ≠ Summary.drain.length ∧ (bench.port .p1).recv ≠ .request := by
  refine ⟨rfl, ?_⟩; decide

theorem witness_StatusReadsAnswerTheirFields :
    ((asking .p3 .observer bench).port .p3).recv = .request ∧ ((asking .p3 .observer bench).port .p3).role ∈ rolesAll := by
  decide

theorem witness_ChannelRecipeAndPortReads :
    ((asking .p3 .observer bench).port .p3).role ∈ rolesAll ∧ Zone.ofNat? (9#8).toNat = some .z9 ∧ 9 < (10#8).toNat ∧
      RecipeSlot.ofNat? (7#8).toNat = some .s7 ∧ 7 < (8#8).toNat := by decide

theorem witness_NoticeReadAndMaskWrite :
    ((asking .p1 .press bench).port .p1).recv = .request ∧ ((asking .p1 .press bench).port .p1).role ∈ rolesAll ∧
      (7#8).toNat < 8 ∧ 8 ≤ (8#8).toNat ∧ ((asking .p1 .off bench).port .p1).recv = .request ∧
      ((asking .p1 .off bench).port .p1).role = .off := by decide

/-- The long-operation slot of a port that asks. -/
def slotted (x : OpSlot) : State := (asking .p1 .press bench).modPort .p1 (fun q => { q with slot := x })

theorem witness_OperationResultByTheSlot :
    ((slotted .idle).port .p1).slot = .idle ∧ ((slotted (.running .scaleZero 4)).port .p1).slot = .running .scaleZero 4 ∧
      ((slotted (.done .scaleSpan .ok [1#8])).port .p1).slot = .done .scaleSpan .ok [1#8] ∧
      ((slotted .idle).port .p1).recv = .request := by decide

theorem witness_ClockSetsCountsAndHolds :
    Taken Summary.clockRead .p1 [] (asking .p1 .press bench) ∧
      Taken Summary.clockSet .p3 [0#8, 0#8, 0#8, 255#8] (asking .p3 .supervisor bench) ∧ bench.clock.isSet = false ∧
      ((asking .p1 .off bench).port .p1).role = .off ∧ ((asking .p1 .press bench).port .p1).role ≠ .supervisor ∧
      (after .clockSecond { bench with clock := ⟨1, true, 1⟩ }).clock.isSet = true := by
  unfold Taken; decide

theorem witness_PortRestartReturnsThePortToItsStart :
    ((asking .p2 .charge bench).port .p2).recv = .request ∧ ((asking .p2 .charge bench).port .p2).role ∈ rolesAll ∧
      ((asking .p2 .off bench).port .p2).recv = .request ∧ ((asking .p2 .off bench).port .p2).role = .off := by decide

theorem witness_RawLevelsAreDebounced :
    (bench.lines.line.get .modeA).raw = true ∧ (bench.lines.line.get .modeA).raw ≠ false ∧
      State.reset.lines.qualify.isSome = true := by decide

/-- The bench with MOULD_OPEN's raw level changed and its debounce interval running. -/
def moving : State := after (.rawLevelChange .mouldOpen false) bench

theorem witness_DebouncedLevelsAreInterpretedTogether :
    moving.lines.qualify = none ∧ (∃ l ∈ [Line.mouldOpen], (moving.lines.line.get l).interval.isSome = true) := by decide

theorem witness_QualificationExpiryInterpretsTheLines :
    State.reset.lines.qualify.isSome = true ∧ bench.lines.qualify = none := by decide

/-- The bench with the mould closed and a shot curing, MOULD_CLOSED about to deassert. -/
def parting : State :=
  { curing (benchCure 9 9) with
    lines := { bench.lines with line := { bench.lines.line with
      mouldOpen := benchLine false
      mouldClosed := { raw := false, debounced := some true, interval := some 1, level := true } } } }

theorem parting_ejectorsKept : parting.ejectorsKept := by
  intro d; cases d <;> (simp only [Ejector.inPhase]; decide)

theorem witness_MouldOpeningHoldsEveryCuringDaylight :
    parting.lines.qualify = none ∧ parting.ejectorsKept ∧
      (∃ l ∈ [Line.mouldClosed], (parting.lines.line.get l).interval.isSome = true) ∧ parting.level .mouldClosed = true ∧
      (after (.debouncedLevelChange [.mouldClosed]) parting).level .mouldClosed = false ∧
      (parting.entry .d1).state = .curing :=
  ⟨rfl, parting_ejectorsKept, by decide, by decide, by decide, by decide⟩

theorem witness_SampleJoinsEveryHistory :
    exec .clockSecond bench = .next (after .clockSecond bench) ∧ (∀ inputs, Instr.clockSecond ≠ .sampleComplete inputs) ∧
      ∀ straps memory, Instr.clockSecond ≠ .deviceReset straps memory := by
  refine ⟨rfl, ?_, ?_⟩ <;> intros <;> simp

theorem witness_SecondBoundaryFormsTheValues :
    ({ bench with periods := 4 } : State).periods = 4 ∧ ({ bench with periods := 3 } : State).periods ≠ 4 ∧
      (bench.channel .z0).history.length = 4 ∧
      ([.overrange, .openCircuit, .valid 5, .valid 6] : List Sample) = [.overrange] ++ .openCircuit :: [.valid 5, .valid 6] ∧
      ([.openCircuit, .overrange, .valid 5, .valid 6] : List Sample)
        = [.openCircuit] ++ .overrange :: [.valid 5, .valid 6] := by decide

theorem witness_SettingWritesClampAndStore :
    ((asking .p3 .supervisor bench).port .p3).recv = .request ∧ ((asking .p3 .supervisor bench).port .p3).role = .supervisor ∧
      Zone.ofNat? (9#8).toNat = some .z9 ∧ 9 < (10#8).toNat := by decide

theorem bench_budgetKept : bench.budgetKept := by
  refine ⟨by decide, by decide, ?_⟩; intro z; cases z <;> decide

theorem witness_WindowStartComputesGrantsAndTransfers :
    bench.budgetKept ∧ bench.window.untilStart = 0 ∧ State.reset.window.untilStart ≠ 0 ∧ (bench.zone .z0).mode = .auto ∧ bench.setpoint .z0 = some 1550 ∧
      (bench.channel .z0).value = .valid 1550 ∧ bench.tripInForce .z0 = false ∧ bench.heatHold = false :=
  ⟨bench_budgetKept, by decide⟩

/-- The bench with a HEAT_NOW copy that waits. -/
def revising (applied : Bool) : State :=
  { bench with recipes := { bench.recipes with
      copy := some { record := { benchRecipe with heat := { benchRecipe.heat with readyBand := 40 } }, apply := .heatNow
                     heatApplied := applied } } }

theorem witness_HeatNowAppliesAtWindowStart :
    (revising false).window.untilStart = 0 ∧ (revising true).window.untilStart = 0 ∧
      (revising false).recipes.copy.map (·.apply) = some .heatNow ∧
      (revising false).recipes.copy.map (·.heatApplied) = some false ∧ (revising false).recipes.active = some .s4 ∧
      ((revising false).recipes.slots.get .s4).record = some benchRecipe ∧ bench.recipes.copy = none ∧
      (revising true).recipes.copy.map (·.heatApplied) = some true := by decide

/-- The bench in the last millisecond of a window of 4 s, zone 0 on for the whole of it. -/
def wholeWindow : State := { bench with
  window := { bench.window with phase := 3999, onTime := bench.window.onTime.set .z0 4000 } }

theorem witness_HeaterOutputsTurnOnOnlyAtWindowStarts :
    State.reset.heatHold = true ∧ bench.window.onTime.get .z0 < bench.window.length * 1000 ∧ bench.outputsKept ∧
      bench.heaterOutput .z0 = false ∧ wholeWindow.window.onTime.get .z0 = wholeWindow.window.length * 1000 ∧
      wholeWindow.heaterOutput .z0 = true ∧ wholeWindow.pending = [] ∧ ∃ t, step bench = .next t := by
  refine ⟨by decide, by decide, ?_, by decide, by decide, by decide, rfl, _, rfl⟩
  intro z; cases z <;> decide

theorem witness_ZoneModeSetBecomesTheNextMode :
    ((asking .p3 .supervisor bench).port .p3).role = .supervisor ∧ Zone.ofNat? (0#8).toNat = some .z0 ∧
      zoneModeOf (0#8).toNat = some .auto ∧ zoneModeOf (1#8).toNat = some .manual ∧ zoneModeOf (2#8).toNat = some .frozen ∧
      zoneModeOf (3#8).toNat = some .off ∧ 9 < (10#8).toNat ∧ 3 < (4#8).toNat := by decide

/-- The bench with zone 0 MANUAL at a duty, every load weight 10, and a budget. -/
def loaded (duty budget : Nat) : State :=
  asking .p3 .supervisor { bench with
    budget := { bench.budget with inForce := budget }
    zones := bench.zones.set .z0 { bench.zone .z0 with mode := .manual, shadow := some duty, duty := duty } }

theorem witness_DutyBudgetAndWeightWritesAreChecked :
    ((loaded 500 5000).port .p3).recv = .request ∧ ((loaded 500 5000).port .p3).role = .supervisor ∧
      (bench.zone .z0).nextMode ≠ .manual ∧ ((loaded 500 5000).zone .z0).nextMode = .manual ∧
      4999 < nextFixedLoad (loaded 500 5000).zones ∧ nextFixedLoad (loaded 500 5000).zones ≤ 5000 ∧
      (loaded 500 5000).budget.writeBound < 11 * ((loaded 500 5000).zone .z0).shadowValue ∧ 9 < (10#8).toNat := by decide

theorem witness_HeaterBudgetKeptByEveryStep : bench.budgetKept ∧ ∃ t, step bench = .next t :=
  ⟨bench_budgetKept, _, rfl⟩

/-- Zone 2 too hot, its OVER source at a trip state and a kind. -/
def hot (state : TripState) (kind : TripKind) (present : Bool) : State :=
  { bench with
    channels := bench.channels.set .z2 { bench.channel .z2 with value := .valid 1701 }
    trips := bench.trips.set .z2 ((bench.trips.get .z2).set .over
      { kind := kind, state := state, present := present, onset := none }) }

theorem witness_PerSecondTestTakesOnsets :
    ((hot .none .latch false).channel .z2).formed = true ∧ ((hot .none .latch false).trip .z2 .over).state = .none ∧
      (∃ r, (hot .none .latch false).activeRecipe = some r ∧ r.setpoint .z2 + r.heat.overBand < 1701 ∧
        ¬ r.setpoint .z2 + r.heat.overBand < 1700) ∧
      ((after .perSecondTest (hot .none .latch false)).trip .z2 .over).state = .latchInForce ∧
      (after .perSecondTest (hot .none .latch false)).commit.records.length = 1 ∧
      (let full : State := { hot .none .latch false with
        commit := { records := List.replicate 8 (.chargeReject (benchCharge .d1)), dropped := 3 } }
      (after .perSecondTest full).commit.dropped = 4 ∧ (after .perSecondTest full).depth = 8) ∧
      ((curing (benchCure 9 9)).entry .d1).state = .curing ∧ Zone.z2 ∈ Daylight.d1.bounding.toList := by
  refine ⟨by decide, by decide, ⟨_, rfl, by decide +kernel, by decide +kernel⟩, ?_⟩
  decide +kernel

theorem witness_TripsAreClearedAndTheirKindsSet :
    ((asking .p1 .press (hot .latchInForce .latch false)).port .p1).role = .press ∧ Zone.ofNat? (2#8).toNat = some .z2 ∧
      2 < (3#8).toNat ∧ (1#8).toNat = Source.code .over ∧ ((hot .cycleInForce .cycle true).trip .z2 .over).state ≠ .latchInForce ∧
      ((hot .latchInForce .latch true).trip .z2 .over).present = true ∧
      ((hot .latchInForce .latch false).trip .z2 .over).present = false ∧
      ((asking .p1 .supervisor bench).port .p1).role = .supervisor ∧ 1 < (2#8).toNat ∧ (1#8).toNat ≤ 1 ∧
      9 < (10#8).toNat := by decide

theorem witness_LatchedTripEndsOnlyByClearOrReset :
    ((hot .latchInForce .latch false).trip .z2 .over).state = .latchInForce ∧
      ∃ t, exec .windowStart (hot .latchInForce .latch false) = .next t := ⟨by decide, _, rfl⟩

/-- A shot curing while a bounding zone's value is invalid and the pause stands at a length. -/
def pausing (pause : Nat) : State :=
  { curing (benchCure 9 9) with
    channels := bench.channels.set .z2 { bench.channel .z2 with value := .invalid .openCircuit }
    cure := bench.cure.set .d1 { CureState.reset with pause := pause } }

theorem witness_AccountedSecondIsPausedColdOrRated :
    (curing (benchCure 9 9)).activeRecipe = some benchRecipe ∧ (∀ z, ((curing (benchCure 9 9)).channel z).formed = true) ∧
      ((curing (benchCure 9 9)).entry .d1).state = .curing ∧
      ((pausing 3).cure.get .d1).pause + 1 ≤ benchRecipe.cure.limit ∧ benchRecipe.cure.limit < ((pausing 4).cure.get .d1).pause + 1 ∧
      ((pausing 4).entry .d1).state = .curing ∧ ((1600 : Int) - 1500 = 1 * (100 : Nat) + 0) := by
  refine ⟨rfl, ?_, by decide, by decide, by decide, by decide, by decide⟩
  intro z; cases z <;> decide

/-- The scale about to come to rest at a weight, the builder in a state with its pieces, live set and reference. -/
def resting (weight : Int) (state : BuilderState) (reference : Int) (pieces : List Piece) (live : VariantSet) : State :=
  { bench with
    weigh := { bench.weigh with
      span := 65536, window := List.replicate 8 (weight, false), filtered := List.replicate 16 weight }
    builder := { Builder.reset with
      state := state, charge := some { number := 1, daylight := .d2, slot := .s4, version := 3, start := ⟨0, false⟩ }
      tare := some 0, reference := some reference, latest := some reference, pieces := pieces, live := live
      recovery := some { state := .collecting, live := live, waiting := none } } }

/-- The state after a sample of a weight on that scale. -/
def rested (weight : Int) (s : State) : State := after (.sampleArrival weight false) s

/-- The first piece as the list holds it. -/
def piece1 : Piece := { weight := 1200, liveBefore := ⟨true, true, false⟩, matched := ⟨true, true, false⟩ }

theorem witness_SampleArrivalFiltersTheWeight :
    (bench.weigh.window ++ [(5, false)]).length ≠ 8 ∧ bench.builder.state = .idle ∧
      (rested 1200 (resting 1200 .taring 0 [] ⟨true, true, false⟩)).weigh.window.length = 8 := by decide

theorem witness_SettleEventsMoveTheBuilder :
    (let both : VariantSet := ⟨true, true, false⟩
    let event (v : Int) (s : State) : Bool :=
      !s.weigh.settled && (rested v s).weigh.settled && decide ((rested v s).weigh.lastSettled = some v)
    event 1200 (resting 1200 .taring 0 [] both) = true ∧ (resting 1200 .taring 0 [] both).layup = some benchRecipe.layup ∧
      (event 299 (resting 299 .collecting 0 [] both) = true) ∧
      (rested 1200 (resting 1200 .collecting 0 [] both)).builder.pieces.length = 1 ∧
      (rested 300 (resting 300 .collecting 0 [] both)).builder.state = .recovery ∧
      (rested 2000 (resting 2000 .collecting 1200 [piece1] both)).builder.state = .prefixWait ∧
      (rested 2000 (resting 2000 .collecting 1200 [piece1] ⟨true, false, false⟩)).builder.state = .idle ∧
      (rested 0 (resting 0 .collecting 1200 [piece1] both)).builder.pieces = [] ∧
      (rested 150 (resting 150 .recovery 0 [] both)).builder.state = .collecting ∧
      (rested 151 (resting 151 .recovery 0 [] both)).builder.state = .recovery) := by decide

/-- A calibration with its samples taken, on a scale with zero 0 and span 500. -/
def calibrated (kind : CalKind) (sum : Int) (saturated : Bool) : State :=
  { bench with weigh := { bench.weigh with
      cal := some { kind := kind, port := .p3, op := 0, samples := 80, sum := sum, saturated := saturated } } }

/-- Section 7.9: an average of 120000 becomes the zero; a reference of 10000 g at 1310700 above it keeps the span 500. -/
theorem witness_CalibrationsStartAndEnd :
    (asking .p3 .supervisor bench).weigh.cal = none ∧ (calibrated .zeroing 0 false).weigh.cal.isSome = true ∧
      (after .scaleZeroDone (calibrated .zeroing 9600000 false)).weigh.zero = 120000 ∧
      (after .scaleSpanDone (calibrated (.spanning 10000 false) 104856000 false)).weigh.span = 500 ∧
      (after .scaleSpanDone (calibrated (.spanning 10000 false) 640 false)).weigh.span = 500 ∧
      (after .scaleZeroDone (calibrated .zeroing 9600000 true)).weigh.zero = 0 ∧ bench.weigh.cal = none := by decide

theorem witness_ChargeBeginStartsACharge :
    (let s := asking .p2 .charge bench
    Taken Summary.chargeBegin .p2 [2#8] s ∧ Daylight.ofNat? (2#8).toNat = some .d2 ∧ s.builder.state = .idle ∧
      s.weigh.cal = none ∧ s.lines.mode = .run ∧ s.recipes.active = some .s4 ∧ s.queue.length < 4 ∧
      (∀ e ∈ s.queue, e.record.daylight ≠ .d2) ∧ (∃ e ∈ s.queue, e.record.daylight = .d1) ∧
      (resting 0 .taring 0 [] ⟨true, true, false⟩).builder.state ≠ .idle ∧ (benchIn .setup).lines.mode ≠ .run ∧
      Taken Summary.chargeBegin .p2 [0#8] s ∧ (0#8).toNat = 0 ∧ Taken Summary.chargeBegin .p2 [5#8] s ∧
      4 < (5#8).toNat) := by
  unfold Taken; decide

/-- A line whose debounce interval is about to end at a new level. -/
def arriving (l : Line) (level : Bool) (s : State) : State :=
  { s with lines := { s.lines with line := s.lines.line.set l {
      raw := level, debounced := some (!level), interval := some 1, level := !level } } }

/-- The state after that line's debounced level has formed. -/
def arrived (l : Line) (level : Bool) (s : State) : State := after (.debouncedLevelChange [l]) (arriving l level s)

/-- A charge station that asks, a charge in progress whose gap timer has run out, the first variant completed where it waits. -/
def expiring (state : BuilderState) (waiting : Option Variant) : State :=
  asking .p2 .charge { resting 2000 state 1200 [piece1] ⟨true, true, false⟩ with
    builder := { (resting 2000 state 1200 [piece1] ⟨true, true, false⟩).builder with
      waiting := waiting, gapTimer := some 0, recovery := some { state := .prefixWait, live := ⟨true, true, false⟩, waiting := waiting } } }

/-- R119: a piece taken before the expiry restarts the gap timer, and the charge goes on; an expiry taken first ends it. -/
theorem test_gap_expiry_after_a_piece :
    (after .gapTimerExpiry (rested 2000 (expiring .collecting none))).builder.state = .prefixWait ∧
      (after .gapTimerExpiry (expiring .collecting none)).builder.state = .idle := by decide

/-- The variant of the first record in the Commit Queue, a CHARGE_REJECT. -/
def rejectedVariant (s : State) : Option (Option Variant) :=
  match s.commit.records with
  | .chargeReject r :: _ => some r.variant
  | _ => none

/-- R119, R124: a charge rejected in PREFIX_WAIT, or in a recovery that returns there, has completed its waiting variant; one
rejected in COLLECTING has no variant. -/
theorem test_rejected_variant :
    rejectedVariant (after (.chargeAbort .p2 []) (expiring .prefixWait (some .v1))) = some (some .v1) ∧
      rejectedVariant (after .recoveryTimerExpiry (expiring .recovery (some .v1))) = some (some .v1) ∧
      rejectedVariant (after .gapTimerExpiry (expiring .collecting none)) = some none := by decide

/-- The bench with no charge queued, a copy of the active recipe and the selection of slot 2 waiting. -/
def changing (s : State) : State :=
  { s with
    queue := []
    recipes := { s.recipes with
      copy := some { record := { benchRecipe with eject := 9 }, apply := .atIdle, heatApplied := false }
      selection := some (some .s2) } }

/-- R149, R151: an abort that makes the cell idle applies the copy to slot 4, whose version rises, then the selection. -/
theorem witness_AppliedAtIdle :
    (let s := changing (expiring .collecting none)
    let t := after (.chargeAbort .p2 []) s
    ¬ s.nothingWaits ∧ s.cellIdle = false ∧ t.cellIdle = true ∧ t.nothingWaits ∧ t.recipes.active = some .s2 ∧
      t.slotVersion .s4 = 4 ∧ (t.recipes.slots.get .s4).record.map (·.eject) = some 9) := by
  unfold State.nothingWaits; decide

theorem witness_ChargesEndByTimersAbortAndOverload :
    (let s (x : BuilderState) : State := asking .p2 .charge (resting 0 x 0 [] ⟨true, true, false⟩)
    (s .taring).builder.charge.isSome = true ∧ (s .taring).builder.state = .taring ∧ (s .recovery).builder.state = .recovery ∧
      (s .collecting).builder.state = .collecting ∧ (s .prefixWait).layup = some benchRecipe.layup ∧
      Taken Summary.chargeAbort .p2 [] (s .taring) ∧ bench.builder.state = .idle ∧
      (s .taring).weigh.overload = false ∧ (after (.sampleArrival 0 true) (s .taring)).weigh.overload = true ∧
      (expiring .collecting none).builder.gapTimer = some 0 ∧ (expiring .collecting none).builder.state = .collecting ∧
      (expiring .prefixWait (some .v1)).builder.state = .prefixWait ∧
      (expiring .prefixWait (some .v1)).layup = some benchRecipe.layup ∧
      (expiring .prefixWait (some .v1)).builder.waiting = some .v1 ∧
      (expiring .prefixWait (some .v1)).builder.gapTimer = some 0 ∧ (s .collecting).builder.gapTimer ≠ some 0 ∧
      (arriving .modeA false (s .collecting)).lines.mode = .run ∧
      (arrived .modeA false (s .collecting)).lines.mode = .setup) := by
  unfold Taken; decide

theorem witness_QueuedChargesExpireAndAreDiscarded :
    (let s := asking .p2 .charge bench
    Taken Summary.chargeDiscard .p2 [1#8] s ∧ Daylight.ofNat? (1#8).toNat = some .d1 ∧ (s.queued .d1).isSome = true ∧
      s.queued .d2 = none ∧
      (after .chargeQueueExpiry { s with queue := s.queue.map (fun e => { e with age := 1799 }) }).queue = [] ∧
      (after .chargeQueueExpiry { s with queue := s.queue.map (fun e => { e with age := 1798 }) }).queue ≠ [] ∧
      Taken Summary.chargeDiscard .p2 [0#8] s ∧ (0#8).toNat = 0 ∧ Taken Summary.chargeDiscard .p2 [5#8] s ∧
      4 < (5#8).toNat ∧
      (let late (d : Daylight) : QueueEntry := { record := benchCharge d, age := 1799, life := 1800 }
      let crossing : State := { s with
        queue := [late .d1, late .d2, late .d3]
        commit := { records := List.replicate 6 (.chargeReject (benchCharge .d4)), dropped := 0 } }
      (after .chargeQueueExpiry crossing).depth = 8 ∧ (after .chargeQueueExpiry crossing).commit.dropped = 1)) := by
  unfold Taken; decide

theorem witness_LoadPermitsAreGrantedAndEnd :
    (let s := asking .p2 .charge bench
    let permitted := holding .d1 .loadPermitted none s
    Taken Summary.loadRequest .p2 [1#8] s ∧ Daylight.ofNat? (1#8).toNat = some .d1 ∧ (s.entry .d1).state = .vacant ∧
      (∃ e ∈ s.queue, e.record.daylight = .d1) ∧ (∀ z ∈ Daylight.d1.bounding.toList, s.readiness z = .ready) ∧
      s.level .mouldOpen = true ∧ s.lines.mode = .run ∧ s.board.nextShot < 4294967295 ∧
      Taken Summary.loadCancel .p2 [1#8] permitted ∧ (permitted.entry .d1).state = .loadPermitted ∧
      (∀ e ∈ s.queue, e.record.daylight ≠ .d2) ∧ Taken Summary.loadRequest .p2 [0#8] s ∧ (0#8).toNat = 0 ∧
      Taken Summary.loadCancel .p2 [5#8] s ∧ 4 < (5#8).toNat ∧
      (hot .none .latch false).firstUnready .d1 = some (.z2, .aboveBand)) := by
  unfold Taken; decide

/-- The bench with the mould closed and a shot loaded. -/
def closedWith (state : DaylightState) : State :=
  holding .d1 state (some (benchShot 1 .d1)) { bench with
    lines := { bench.lines with line := { bench.lines.line with
      mouldClosed := benchLine true, mouldOpen := benchLine false } } }

theorem witness_CureStartAndForceRelease :
    (let s := asking .p1 .press (closedWith .loaded)
    let c := asking .p3 .supervisor (closedWith .curing)
    Taken Summary.cureStart .p1 [] s ∧ s.daylightsIn [.unknown, .loadPermitted, .demoulding, .awaitTakeout, .awaitCommit] = [] ∧
      s.daylightsIn [.loaded] = [.d1] ∧ s.lines.mode = .run ∧ s.level .mouldClosed = true ∧
      Daylight.all.filter (fun d => (s.entry d).state != .vacant && !(s.level (.ejectHome d))) = [] ∧
      s.activeRecipe = some benchRecipe ∧ Taken Summary.forceRelease .p3 [] c ∧ c.daylightsIn [.curing] = [.d1] ∧
      s.daylightsIn [.curing] = []) := by
  unfold Taken; decide

theorem witness_ClosedShotsAreOfferedInOrder :
    (let s := asking .p2 .charge (holding .d1 .awaitTakeout (some (benchShot 4 .d1)) bench)
    let u := asking .p1 .press (holding .d1 .unknown none bench)
    Taken Summary.takeoutDone .p2 [1#8] s ∧ (s.entry .d1).state = .awaitTakeout ∧ (s.entry .d1).shot = some (benchShot 4 .d1) ∧
      s.depth < 12 ∧ Taken Summary.declare .p1 [1#8, 0#8] u ∧ Taken Summary.declare .p1 [1#8, 1#8] u ∧
      (u.entry .d1).state = .unknown ∧ 1 < (2#8).toNat ∧
      Taken Summary.takeoutDone .p2 [0#8] s ∧ (0#8).toNat = 0 ∧ Taken Summary.declare .p1 [5#8, 0#8] u ∧ 4 < (5#8).toNat ∧
      ((after (.takeoutDone .p2 [1#8]) s).entry .d1).state = .vacant ∧
      ((after (.takeoutDone .p2 [1#8]) (holding .d2 .held (some (benchShot 3 .d2)) s)).entry .d1).state = .awaitCommit) := by
  unfold Taken; decide

/-- A full Commit Queue. -/
def full (s : State) : State :=
  { s with commit := { records := List.replicate 12 (.chargeReject (benchCharge .d1)), dropped := 3 } }

/-- R17: a takeout whose record finds the Commit Queue full raises COMMIT_BLOCKED. -/
theorem witness_BlockedReported :
    (let s := full (asking .p2 .charge (holding .d1 .awaitTakeout (some (benchShot 4 .d1)) bench))
    let t := after (.takeoutDone .p2 [1#8]) s
    s.commitBlocked = false ∧ t.commitBlocked = true ∧ t.depth = 12 ∧ (t.entry .d1).state = .awaitCommit ∧
      (t.port .p1).notices &&& Notice.commitBlocked.word = Notice.commitBlocked.word) := by decide

/-- R16: two closed shots wait for places; a drain lets the lower go, with the dropped count, and its daylight is EMPTY. -/
theorem witness_OffersMade :
    (let s := full (asking .p3 .supervisor (holding .d1 .awaitCommit (some (benchShot 5 .d1))
      (holding .d2 .awaitCommit (some (benchShot 4 .d2)) bench)))
    let t := after (.drain .p3 []) s
    Taken Summary.drain .p3 [] s ∧ t.depth = 12 ∧
      t.commit.records.getLast? = some (.shot { benchShot 4 .d2 with dropped := 3 }) ∧ t.commit.dropped = 0 ∧
      (t.entry .d2).state = .vacant ∧ (t.entry .d1).state = .awaitCommit) := by
  unfold Taken; decide

/-- The bench with a press station that asks and two shots to demould, the mould open or closed. -/
def ripe (mouldOpen : Bool) : State :=
  asking .p1 .press (holding .d1 .cured (some (benchShot 1 .d1)) (holding .d3 .held (some (benchShot 2 .d3)) { bench with
    lines := { bench.lines with line := { bench.lines.line with mouldOpen := benchLine mouldOpen } } }))

theorem ripe_linesKept (b : Bool) : (ripe b).linesKept := by
  refine ⟨fun h => ?_, by cases b <;> decide, by cases b <;> decide, ?_, by cases b <;> decide⟩
  · cases b <;> cases h
  · intro d; cases b <;> cases d <;> decide

theorem ripe_ejectorsKept (b : Bool) : (ripe b).ejectorsKept := by
  intro d; cases b <;> cases d <;> (simp only [Ejector.inPhase]; decide)

theorem witness_DemouldGrantStartsSequences :
    Taken Summary.demouldRequest .p1 [] (ripe true) ∧ (ripe true).lines.mode ≠ .stop ∧
      (ripe true).daylightsIn [.unknown, .loadPermitted] = [] ∧ (ripe true).daylightsIn [.curing, .loaded] = [] ∧
      (ripe true).linesKept ∧ (ripe true).ejectorsKept ∧ (ripe false).linesKept ∧ (ripe false).ejectorsKept ∧
      (ripe true).level .mouldOpen = true ∧ (ripe false).level .mouldOpen = false :=
  ⟨by unfold Taken; decide, by decide, by decide, by decide, ripe_linesKept _, ripe_ejectorsKept _, ripe_linesKept _,
    ripe_ejectorsKept _, by decide, by decide⟩

/-- The bench in SETUP with a press station that asks, and a slot count. -/
def setup (count : Nat) : State :=
  asking .p1 .press { bench with
    lines := { bench.lines with
      mode := .setup, line := { bench.lines.line with modeA := benchLine false } }
    arbiter := { bench.arbiter with count := count } }

theorem setup_linesKept (n : Nat) : (setup n).linesKept := by
  refine ⟨by simp [setup, asking, bench], rfl, by simp [setup, asking, bench, State.level, Lines.get, benchLine], ?_, rfl⟩
  intro d; cases d <;> simp [setup, asking, bench, State.level, Lines.get, benchLine, Four.get, Four.all]

theorem setup_ejectorsKept : (setup 2).ejectorsKept := by
  intro d; cases d <;> (simp only [Ejector.inPhase]; decide)

theorem witness_EjectorTestsAndSlotCount :
    Taken Summary.ejectorTest .p1 [1#8] (setup 2) ∧ (setup 2).lines.mode = .setup ∧ ((setup 2).entry .d1).state = .vacant ∧
      (setup 2).level .mouldOpen = true ∧ ((setup 2).ejector .d1).test = none ∧ (setup 2).linesKept ∧ (setup 2).ejectorsKept ∧
      (setup 2).arbiter.waiting.members = [] ∧ (setup 2).arbiter.held < (setup 2).arbiter.count ∧
      (setup 0).arbiter.count ≤ (setup 0).arbiter.held ∧
      Taken Summary.hydraulicSlotCountWrite .p3 [3#8] (asking .p3 .supervisor (ripe true)) ∧
      Taken Summary.ejectorTest .p1 [0#8] (setup 2) ∧ (0#8).toNat = 0 ∧ Taken Summary.ejectorTest .p1 [5#8] (setup 2) ∧
      4 < (5#8).toNat :=
  ⟨by unfold Taken; decide, by decide, by decide, by decide, by decide, setup_linesKept _, setup_ejectorsKept, by decide,
    by decide, by decide, by unfold Taken; decide⟩

/-- One slot, held by daylight 2's sequence in FORWARD; those of daylights 1 and 3 wait for it. A supervisor station asks. -/
def crowded : State :=
  asking .p3 .supervisor (holding .d1 .demoulding (some (benchShot 1 .d1)) (holding .d2 .demoulding (some (benchShot 2 .d2))
    (holding .d3 .demoulding (some (benchShot 3 .d3)) { bench with
      demould := { bench.demould with ejectors := ⟨{ Ejector.reset with phase := .waitSlot },
        { Ejector.reset with phase := .forward, attempt := 1, timer := some 9, valve := true },
        { Ejector.reset with phase := .waitSlot }, Ejector.reset⟩ }
      arbiter := { count := 1, holders := ⟨false, true, false, false⟩, waiting := ⟨true, false, true, false⟩ } })))

theorem crowded_linesKept : crowded.linesKept := by
  refine ⟨fun h => (by cases h), by decide, by decide, ?_, by decide⟩
  intro d; cases d <;> decide

theorem crowded_ejectorsKept : crowded.ejectorsKept := by
  intro d; cases d <;> (simp only [Ejector.inPhase]; decide)

/-- R135, R140: the holder keeps its slot, the one new slot goes to the lower of two that wait; at the return home of daylight 2
the one slot goes to daylight 1. -/
theorem witness_SlotsHandedOver :
    (let t := after (.hydraulicSlotCountWrite .p3 [2#8]) crowded
    Taken Summary.hydraulicSlotCountWrite .p3 [2#8] crowded ∧ crowded.arbiter.count < 2 ∧
      t.arbiter.holders = ⟨true, true, false, false⟩ ∧ t.arbiter.waiting = ⟨false, false, true, false⟩ ∧
      (t.ejector .d1).phase = .forward ∧ (t.ejector .d1).attempt = 1 ∧ t.ejector .d2 = crowded.ejector .d2) ∧
    (let back := crowded.modEjector .d2 (fun e => { e with phase := .retract, valve := false })
    let lower (t : State) : Bool :=
      decide (t.arbiter.holders = ⟨true, false, false, false⟩ ∧ t.arbiter.waiting = ⟨false, false, true, false⟩)
    lower (after (.returnTimerExpiry .d2) back) = true ∧ lower (arrived (.ejectHome .d2) true back) = true) ∧
    crowded.linesKept ∧ crowded.ejectorsKept ∧ crowded.slotsKept := by
  refine ⟨by unfold Taken; decide, by decide, crowded_linesKept, crowded_ejectorsKept, fun _ => by decide⟩

/-- Daylight 2 DEMOULDING in a phase, its slot held, the ejector off home. -/
def stroking (phase : SeqPhase) (attempt : Nat) (failed : Bool) : State :=
  { holding .d2 .demoulding (some (benchShot 1 .d2)) bench with
    lines := { bench.lines with line := { bench.lines.line with
      ejectHome := bench.lines.line.ejectHome.set .d2 (benchLine false) } }
    demould := { bench.demould with ejectors := bench.demould.ejectors.set .d2 {
      Ejector.reset with
        phase := phase, attempt := attempt, failed := failed, timer := some 0, valve := phase == .forward } }
    arbiter := { bench.arbiter with holders := bench.arbiter.holders.set .d2 true } }

/-- Daylight 1 under an ejector test in a phase, in SETUP, the ejector off home. -/
def tested (phase : TestPhase) : State :=
  { setup 2 with
    lines := { (setup 2).lines with line := { (setup 2).lines.line with
      ejectHome := bench.lines.line.ejectHome.set .d1 (benchLine false) } }
    demould := { bench.demould with ejectors := bench.demould.ejectors.set .d1 {
      Ejector.reset with test := some { phase := phase, limit := 6, timer := some 0 }, valve := phase == .forward } }
    arbiter := { bench.arbiter with holders := bench.arbiter.holders.set .d1 true } }

/-- The same with the cylinder home. -/
def strokingHome (attempt : Nat) : State :=
  { stroking .forward attempt false with lines := bench.lines }

theorem tested_ejectorsKept (phase : TestPhase) (h : phase = .forward ∨ phase = .retract) : (tested phase).ejectorsKept := by
  intro d; rcases h with h | h <;> subst h <;> cases d <;> (simp only [Ejector.inPhase]; decide)

theorem stroking_linesKept (phase : SeqPhase) (n : Nat) (b : Bool) : (stroking phase n b).linesKept := by
  refine ⟨fun h => (by cases h), rfl, fun h => ?_, ?_, rfl⟩
  · cases h.1
  · intro d h; cases d <;> cases h.1

theorem tested_linesKept (phase : TestPhase) : (tested phase).linesKept := by
  refine ⟨fun h => (by cases h), rfl, fun h => ?_, ?_, rfl⟩
  · cases h.1
  · intro d h; cases d <;> cases h.1

theorem witness_EjectorTimersEndStrokesReturnsAndTests :
    (stroking .forward 2 false).linesKept ∧ (stroking .retract 1 true).linesKept ∧ (tested .forward).linesKept ∧
      (strokingHome 1).linesKept ∧ (stroking .forward 2 false).ejectorsKept ∧ ((stroking .forward 2 false).ejector .d2).phase = .forward ∧
      (stroking .forward 2 false).level (.ejectHome .d2) = false ∧ (stroking .retract 1 true).ejectorsKept ∧
      ((stroking .retract 1 true).ejector .d2).phase = .retract ∧ (tested .forward).ejectorsKept ∧
      (tested .retract).ejectorsKept ∧
      ((tested .forward).ejector .d1).test = some { phase := .forward, limit := 6, timer := some 0 } ∧
      (strokingHome 1).ejectorsKept ∧ (strokingHome 1).level (.ejectHome .d2) = true ∧
      (strokingHome 1).level (.ejectFwd .d2) = false ∧ ((strokingHome 2).ejector .d2).attempt = 2 ∧
      ({ phase := .forward, limit := 6, timer := some 1 } : EjectorTest).timer ≠ some 0 ∧
      ((after (.strokeTimerExpiry .d2) (strokingHome 1)).ejector .d2).attempt = 2 ∧
      ((after (.strokeTimerExpiry .d2) (strokingHome 2)).entry .d2).state = .awaitTakeout := by
  refine ⟨stroking_linesKept .., stroking_linesKept .., tested_linesKept _, ⟨fun h => (by cases h), rfl, fun h => (by cases h.1),
    fun d h => (by cases d <;> cases h.1), rfl⟩, ?_, by decide, by decide, ?_, by decide, tested_ejectorsKept _ (.inl rfl), tested_ejectorsKept _ (.inr rfl),
    by decide, ?_, by decide, by decide, by decide, by decide, by decide, by decide⟩ <;>
  intro d <;> cases d <;> (simp only [Ejector.inPhase]; decide)

/-- R134, R136 to R139, R141, R142: what the ejectors do at a report, one case for each clause of State.EjectorsReported: the mould
leaves its open position, STOP, forward and home reached by a sequence, by its second attempt and by a test, SETUP left. -/
theorem witness_EjectorsReported :
    (stroking .forward 1 false).ejectorsKept ∧ (tested .retract).ejectorsKept ∧ (stroking .forward 1 false).slotsKept ∧
      (((arrived .mouldOpen false (stroking .forward 1 false)).entry .d2).shot.bind (·.outcome)) = some .ejectAborted ∧
      (((arrived .modeB false (stroking .forward 1 false)).entry .d2).state = .awaitTakeout) ∧
      (((arrived (.ejectFwd .d2) true (stroking .forward 1 false)).ejector .d2).phase = .retract) ∧
      (((arrived (.ejectHome .d2) true (stroking .retract 1 true)).ejector .d2).attempt = 2) ∧
      (((arrived (.ejectHome .d2) true (stroking .retract 1 false)).entry .d2).state = .awaitTakeout) ∧
      (((arrived (.ejectHome .d1) true (tested .retract)).ejector .d1).lastTest = some .passed) ∧
      (((arrived (.ejectFwd .d1) true (tested .forward)).ejector .d1).test.map (·.phase) = some .retract) ∧
      (((arrived .modeA true (tested .retract)).ejector .d1).lastTest = some .aborted) ∧
      (((arrived .mouldOpen true (after (.demouldRequest .p1 []) (ripe false))).ejector .d1).phase = .retract ∨
        ((arrived .mouldOpen true (after (.demouldRequest .p1 []) (ripe false))).ejector .d1).phase = .forward) := by
  refine ⟨?_, tested_ejectorsKept _ (.inr rfl), fun ⟨d, h⟩ => (by cases d <;> cases h), by decide⟩
  intro d; cases d <;> (simp only [Ejector.inPhase]; decide)

/-- One slot, held by daylight 1's test, for which daylight 2's sequence waits; a charge station that asks. -/
def handing : State :=
  asking .p2 .charge (holding .d2 .demoulding (some (benchShot 1 .d2)) { tested .retract with
    demould := { (tested .retract).demould with
      ejectors := (tested .retract).demould.ejectors.set .d2 { Ejector.reset with phase := .waitSlot } }
    arbiter := { (tested .retract).arbiter with count := 1, waiting := bench.arbiter.waiting.set .d2 true } })

theorem witness_LoadDoneOpensAShot :
    (let s := asking .p2 .charge bench
    Taken Summary.loadDone .p2 [1#8] s ∧ (s.entry .d1).state = .vacant ∧ (s.queued .d1).isSome = true ∧
      s.queued .d2 = none ∧ ((holding .d1 .loadPermitted none s).entry .d1).state = .loadPermitted ∧
      ((holding .d1 .held none s).entry .d1).state = .held ∧ s.board.nextShot < 4294967295 ∧
      Taken Summary.loadDone .p2 [0#8] s ∧ (0#8).toNat = 0 ∧ Taken Summary.loadDone .p2 [5#8] s ∧ 4 < (5#8).toNat) ∧
    (∀ u, ((asking .p2 .charge bench).entry u).state ≠ .unknown) ∧ handing.linesKept ∧ handing.ejectorsKept ∧
      ((after (.loadDone .p2 [1#8]) handing).ejector .d2).phase = .forward ∧
      (((after (.loadDone .p2 [1#8]) handing).entry .d2).shot.map (·.attempts)) = some 1 := by
  refine ⟨by unfold Taken; decide, ?_, ⟨fun h => (by cases h), by decide, by decide, ?_, by decide⟩, ?_, by decide, by decide⟩
  · intro u; cases u <;> decide
  · intro d; cases d <;> decide
  · intro d; cases d <;> (simp only [Ejector.inPhase]; decide)

theorem witness_RecipesAreWrittenActivatedAndCleared :
    (let s := asking .p3 .supervisor bench
    (s.port .p3).recv = .request ∧ (s.port .p3).role = .supervisor ∧ benchRecipe.bytes.length = 138 ∧
      structureSound benchRecipe.bytes = true ∧ structureSound (0x1F#8 :: benchRecipe.bytes.drop 1) = false ∧
      RecipeSlot.ofNat? (4#8).toNat = some .s4 ∧ s.recipes.active = some .s4 ∧ s.recipes.active ≠ some .s7 ∧
      s.cellIdle = false ∧ ({ s with queue := [] } : State).cellIdle = true ∧ (s.recipes.slots.get .s4).record ≠ none ∧
      (s.recipes.slots.get .s7).record = none ∧ 8 ≤ (8#8).toNat ∧ recipeClamped benchRecipe.bytes = false ∧
      (readRecipe benchRecipe.bytes).clamp = benchRecipe) := by decide +kernel

/-- The bench with a READY memory, a record to flush and a read that waits. -/
def linked (depth writeSlot : Nat) : State :=
  { bench with
    commit := { records := List.replicate depth (.chargeReject (benchCharge .d1)), dropped := 0 }
    history := { bench.history with
      memory := .ready, ringSize := some 3, ringHeld := true, head := 0, writeSlot := writeSlot }
    ports := bench.ports.set .p2 { bench.port .p2 with read := .waiting, cursorValid := true } }

theorem witness_LinkArbitrationServesByPriority :
    (linked 3 1).link.op = none ∧ (linked 3 1).history.format = none ∧ (linked 3 1).recipes.save = none ∧
      (after .linkArbitration (linked 3 1)).link.op = some (.portRead .p2 false) ∧
      (after .linkArbitration (linked 8 511)).link.op = some .flushProgram ∧
      (after .linkArbitration (linked 8 512)).link.op = some (.sectorErase 1) ∧
      (after .linkArbitration (after .linkArbitration (linked 8 511))).link.op = some .flushProgram := by decide

theorem witness_FlushStepsWriteRecordsAndSectors :
    bench.link.op ≠ some .flushProgram ∧ (∀ seq, bench.link.op ≠ some (.sectorErase seq)) ∧
      (∀ seq, (after .linkArbitration (linked 8 511)).link.op ≠ some (.sectorErase seq)) ∧
      (after .linkArbitration (linked 8 511)).link.op = some .flushProgram ∧
      (after .linkArbitration (linked 8 511)).commit.records ≠ [] ∧
      (after .linkArbitration (linked 8 512)).link.op = some (.sectorErase 1) ∧
      (after .sectorEraseDone (after .linkArbitration (linked 8 512))).link.op = some (.sectorHeader 1) := by
  refine ⟨by decide, fun seq h => (by cases h), fun seq h => ?_, by decide, by decide, by decide, by decide⟩
  have hop : (after .linkArbitration (linked 8 511)).link.op = some .flushProgram := by decide
  cases hop.symm.trans h

/-- R16, R167: a flush program makes room for the shot that waits, whose daylight becomes EMPTY. -/
theorem test_flush_admits_a_waiting_shot :
    (let s := holding .d2 .awaitCommit (some (benchShot 4 .d2)) (linked 12 511)
    let t := s.settleBoard { s with commit := { s.commit with records := s.commit.records.drop 1 } }
    t.depth = 12 ∧ (t.entry .d2).state = .vacant ∧ (t.entry .d2).shot = none) := by decide

/-- A format of two ring sectors that runs a step. -/
def forming (step : FormatStep) : State :=
  { bench with
    history := { bench.history with
      memory := .formatting
      format := some { port := .p3, op := 0, size := 2, clamped := false, first := 5, granted := true, built := false } }
    link := { bench.link with op := some (.format step), left := some 800 } }

/-- A settings save that runs a step. -/
def saving (op : LinkOp) : State :=
  { bench with
    recipes := { bench.recipes with save := some { port := .p3, op := 0, granted := true } }
    link := { bench.link with op := some op } }

theorem witness_SavesAndFormatsRunTheirSteps :
    (let s := asking .p3 .supervisor bench
    (s.port .p3).recv = .request ∧ (s.port .p3).role = .supervisor ∧ (s.port .p3).slot.isRunning = false ∧
      s.recipes.save = none ∧ s.history.memory = .unformatted ∧ 8405023 < max 8405024 0 ∧
      (saving (.settingsErase defaultImage)).link.op = some (.settingsErase defaultImage) ∧
      (saving (.settingsProgram defaultImage)).recipes.save.isSome = true ∧
      (forming (.ringErase 2)).history.format.isSome = true ∧ (forming .header).link.op = some (.format .header)) := by
  decide

theorem witness_FailedFlashStepsFaultTheMemory :
    (after .linkArbitration (linked 8 511)).link.op = some .flushProgram ∧
      (after (.flushProgramDone false) (after .linkArbitration (linked 8 511))).history.memory = .fault ∧
      (after .flashStepTimeout (forming (.ringErase 1))).history.memory = .fault ∧
      (after .linkArbitration (linked 1 1)).link.op = some (.portRead .p2 false) ∧
      (saving (.settingsProgram defaultImage)).link.op = some (.settingsProgram defaultImage) ∧
      ((after .flashStepTimeout ((saving (.settingsErase defaultImage)).modPort .p3 (fun q => { q with
        slot := .running .settingsSave 0 }))).port .p3).slot = .done .settingsSave .memoryFault [] := by decide +kernel

/-- The operations that a device reset can cut short. -/
theorem witness_DeviceResetLeavesEveryBlockReset :
    bench.link.op = none ∧ (after .linkArbitration (linked 8 511)).link.op = some .flushProgram ∧
      (after .linkArbitration (linked 8 512)).link.op = some (.sectorErase 1) ∧
      (after .sectorEraseDone (after .linkArbitration (linked 8 512))).link.op = some (.sectorHeader 1) ∧
      (after .linkArbitration (linked 1 1)).link.op = some (.portRead .p2 false) ∧
      (forming (.ringErase 1)).link.op = some (.format (.ringErase 1)) ∧
      (forming .header).link.op = some (.format .header) ∧ (forming .header).history.format.isSome = true ∧
      (saving (.settingsErase defaultImage)).link.op = some (.settingsErase defaultImage) := by decide

/-- A port that reads a READY memory at a cursor. -/
def reading (cursor : Nat) (read : ReadState) : State :=
  asking .p2 .charge { linked 0 5 with
    ports := bench.ports.set .p2 { bench.port .p2 with read := read, cursor := cursor, cursorValid := true } }

theorem witness_HistoryIsReadAndTheQueueDrained :
    ((reading 0 .idle).port .p2).recv = .request ∧ ((reading 0 .idle).port .p2).role ∈ rolesAll ∧
      (reading 0 .idle).history.memory = .ready ∧ (0 : Nat) < 0 * 511 + (5 - 1) ∧
      ((reading 3 .idle).port .p2).cursor < 0 * 511 + (5 - 1) ∧ 0 * 511 + (5 - 1) ≤ ((reading 4 .idle).port .p2).cursor ∧
      ((reading 0 (.fetched (.ended 2))).port .p2).read = .fetched (.ended 2) ∧
      (after .linkArbitration (reading 0 .waiting)).link.op = some (.portRead .p2 false) ∧
      Taken Summary.drain .p3 [] (asking .p3 .supervisor bench) ∧ bench.history.memory ≠ .ready ∧
      bench.history.memory ≠ .formatting := by
  unfold Taken; decide

/-- A grant in force for daylights 1 and 3, whose sequences wait for the mould to open. -/
theorem granted_grantKept : (after (.demouldRequest .p1 []) (ripe false)).grantKept := by
  constructor
  · intro g h
    have hg : (after (.demouldRequest .p1 []) (ripe false)).demould.grant =
      some { time := ⟨0, false⟩, daylights := ⟨true, false, true, false⟩ } := by decide
    cases hg.symm.trans h
    exact ⟨.d1, rfl, by decide⟩
  · intro d h
    refine ⟨⟨{ time := ⟨0, false⟩, daylights := ⟨true, false, true, false⟩ }, by decide, ?_⟩, ?_⟩
    · revert h; cases d <;> decide
    · intro e; cases e <;> decide

theorem witness_LinesAndEjectorsKeptByEveryStep :
    (ripe true).linesKept ∧ (stroking .forward 2 false).ejectorsKept ∧ (stroking .forward 2 false).valvesOn = 1 ∧
      (∃ t, step (ripe true) = .next t) ∧ crowded.linesKept ∧ crowded.ejectorsKept ∧ crowded.slotsKept ∧
      (∃ t, step crowded = .next t) ∧ (after (.demouldRequest .p1 []) (ripe false)).grantKept ∧
      ∃ t, step (after (.demouldRequest .p1 []) (ripe false)) = .next t := by
  refine ⟨ripe_linesKept _, ?_, by decide, ⟨_, rfl⟩, crowded_linesKept, crowded_ejectorsKept, fun _ => by decide, ⟨_, rfl⟩,
    granted_grantKept, _, rfl⟩
  intro d; cases d <;> (simp only [Ejector.inPhase]; decide)

theorem bench_sensingKept : bench.sensingKept := by intro z; cases z <;> simp [bench, State.channel, State.trip, Ten.all,
  Ten.tabulate, Ten.get, State.reset, ZoneTrips.get, Trip.reset]

theorem bench_controlKept : bench.controlKept := by
  refine ⟨by intro z; cases z <;> decide, by decide, ?_, by decide, by decide⟩; intro n h; cases h

theorem witness_SensingControlAndOutputsKeptByEveryStep :
    bench.sensingKept ∧ bench.controlKept ∧ bench.outputsKept ∧ ∃ t, step bench = .next t :=
  ⟨bench_sensingKept, bench_controlKept, by intro z; cases z <;> decide, _, rfl⟩

theorem witness_BoardAndShotOrderKeptByEveryStep :
    (ripe true).boardKept ∧ (ripe true).ejectorsKept ∧ bench.shotsKept ∧ ∃ t, step (ripe true) = .next t := by
  refine ⟨?_, ripe_ejectorsKept _, ⟨?_, ?_, by decide, by decide, fun m h => by cases h⟩, _, rfl⟩
  · intro d; cases d <;> decide
  · intro d n h; cases d <;> simp [bench, State.shotNumber, State.entry, Four.get, Four.all] at h
  · intro d d' n h; cases d <;> simp [bench, State.shotNumber, State.entry, Four.get, Four.all] at h

theorem witness_ChargesAndRecipesKeptByEveryStep :
    bench.queueKept ∧ bench.idleKept ∧ bench.queue.length = 1 ∧ ∃ t, step bench = .next t := by
  refine ⟨⟨by decide, ?_, by decide, by decide, ?_, ?_⟩, ?_, by decide, _, rfl⟩
  · intro r h; simp [bench, State.reset, Builder.reset] at h
  · intro e h; simp [bench] at h; subst h; exact ⟨rfl, rfl⟩
  · intro c h; simp [bench, State.reset, Builder.reset] at h
  · intro _; exact ⟨rfl, rfl⟩

theorem witness_CommitQueueFlashAndOffPortsKeptByEveryStep :
    (linked 12 1).commitKept ∧ (linked 12 1).flashKept ∧ (linked 12 1).offKept ∧ ∃ t, step (linked 12 1) = .next t := by
  refine ⟨by unfold State.commitKept; decide, rfl, ?_, _, rfl⟩
  intro p; cases p <;> decide

theorem witness_DaylightsMoveOnlyAsTheTableSays :
    (ripe true).linesKept ∧ (ripe true).ejectorsKept ∧
      moves (.demouldRequest .p1 []) ((ripe true).entry .d1).state
        ((after (.demouldRequest .p1 []) (ripe true)).entry .d1).state = true :=
  ⟨ripe_linesKept _, ripe_ejectorsKept _, by decide⟩

end Sys2Proof.Tests
end

section
/-! Proof of R12 (obligation O21): a deassertion of MOULD_CLOSED holds every CURING daylight, and nothing that one report of
the press lines does afterwards reaches a daylight whose ejector is at rest. -/

namespace Sys2Proof.Machine

/-! ## A daylight that the ejectors spare -/

/-- What the work on other daylights keeps of daylight d: its entry, its ejector and its place in the waiting set, with the
press lines and every notice raised so far. -/
structure State.Spares (d : Daylight) (s t : State) : Prop where
  lines : t.lines = s.lines
  entry : t.entry d = s.entry d
  ejector : t.ejector d = s.ejector d
  waits : t.waits d = s.waits d
  raised : ∀ k, Raised k s → Raised k t

/-- The ejector of d is at rest: no sequence, no test, and it waits for no slot (R130, R131). -/
structure State.AtRest (d : Daylight) (s : State) : Prop where
  phase : (s.ejector d).phase = .idle
  test : (s.ejector d).test = none
  waits : s.waits d = false

/-- By the invariant of the ejectors only a DEMOULDING daylight has a sequence and only an EMPTY one a test. -/
theorem State.ejectorsKept.atRest {s : State} (h : s.ejectorsKept) {d : Daylight}
    (hd : (s.entry d).state ∈ [DaylightState.curing, .cured, .held, .loaded]) : s.AtRest d := by
  obtain ⟨hphase, htest, -, hwaits, -⟩ := h d
  have hnotDemoulding : (s.entry d).state ≠ .demoulding := by rintro he; simp [he] at hd
  have hnotVacant : (s.entry d).state ≠ .vacant := by rintro he; simp [he] at hd
  have hidle : (s.ejector d).phase = .idle := by
    by_contra hne
    exact hnotDemoulding (hphase.mp hne)
  have hnone : (s.ejector d).test = none := by
    by_contra hne
    exact hnotVacant (htest (Option.isSome_iff_ne_none.mpr hne)).1
  refine ⟨hidle, hnone, ?_⟩
  have hnotIn : ¬ (s.ejector d).inPhase .waitSlot .waitSlot := by simp [Ejector.inPhase, hidle, hnone]
  exact Bool.eq_false_iff.mpr (fun hw => hnotIn (hwaits.mp hw))

namespace State.Spares

variable {d x : Daylight} {s t u : State}

theorem refl (d : Daylight) (s : State) : Spares d s s := ⟨rfl, rfl, rfl, rfl, fun _ h => h⟩

theorem trans (h : Spares d s t) (h' : Spares d t u) : Spares d s u :=
  ⟨h'.lines.trans h.lines, h'.entry.trans h.entry, h'.ejector.trans h.ejector, h'.waits.trans h.waits,
    fun k hk => h'.raised k (h.raised k hk)⟩

theorem atRest (h : Spares d s t) (hs : s.AtRest d) : t.AtRest d := by
  obtain ⟨hphase, htest, hwaits⟩ := hs
  exact ⟨h.ejector ▸ hphase, h.ejector ▸ htest, h.waits.trans hwaits⟩

theorem level (h : Spares d s t) (l : Line) : t.level l = s.level l := by simp only [State.level, h.lines]

/-- An update that leaves the ports alone keeps the notices. -/
theorem of_ports (hl : t.lines = s.lines) (he : t.entry d = s.entry d) (hj : t.ejector d = s.ejector d)
    (hw : t.waits d = s.waits d) (hp : t.ports = s.ports) : Spares d s t := by
  refine ⟨hl, he, hj, hw, fun k hk p => ?_⟩
  have hport : t.port p = s.port p := congrArg (fun ports => ports.get p) hp
  rw [hport]
  exact hk p

/-- The same for each of a list of items, where d is at rest and every single one spares it. -/
theorem each {α : Type} {f : α → State → State} {items : List α}
    (hf : ∀ x ∈ items, ∀ u, u.AtRest d → Spares d u (f x u)) (hs : s.AtRest d) : Spares d s (s.each items f) :=
  State.each_keeps (fun t => Spares d s t) f items (fun x hx t ht => ht.trans (hf x hx t (ht.atRest hs))) s (refl d s)

/-! ### The single updates -/

theorem raise (k : Notice) : Spares d s (s.raise k) := ⟨rfl, rfl, rfl, rfl, fun _ h => h.raise k⟩

/-- A raise after an update that leaves the ports alone. -/
theorem of_raise (k : Notice) (hl : t.lines = s.lines) (he : t.entry d = s.entry d) (hj : t.ejector d = s.ejector d)
    (hw : t.waits d = s.waits d) (hp : t.ports = s.ports) : Spares d s (t.raise k) :=
  (of_ports hl he hj hw hp).trans (raise k)

theorem raiseOnset (k : Notice) (before after : Bool) : Spares d s (s.raiseOnset k before after) := by
  rcases State.raiseOnset_cases k before after s with ⟨_, _, h⟩ | h <;> rw [h]
  · exact raise k
  · exact refl d s

theorem modEjector (hx : d ≠ x) (f : Ejector → Ejector) : Spares d s (s.modEjector x f) :=
  of_ports rfl rfl (by simp [hx]) rfl rfl

theorem modEntry (hx : d ≠ x) (f : Entry → Entry) : Spares d s (s.modEntry x f) :=
  of_ports rfl (by simp [hx]) rfl rfl rfl

theorem modShot (hx : d ≠ x) (f : Shot → Shot) : Spares d s (s.modShot x f) := modEntry hx _

theorem setFailed (hx : d ≠ x) (b : Bool) : Spares d s (s.setFailed x b) :=
  (modEjector hx _).trans (modShot hx _)

theorem setHolder (b : Bool) : Spares d s (s.setHolder x b) := of_ports rfl rfl rfl rfl rfl

theorem setWaiting (hx : d ≠ x) (b : Bool) : Spares d s (s.setWaiting x b) :=
  of_ports rfl rfl rfl (by simp [hx]) rfl

theorem modBuilder (f : Builder → Builder) : Spares d s (s.modBuilder f) := of_ports rfl rfl rfl rfl rfl

theorem enterState (hx : d ≠ x) (next : DaylightState) : Spares d s (s.enterState x next) :=
  (modEntry hx _).trans (raise .daylight)

theorem closeGrant : Spares d s s.closeGrant := by
  unfold State.closeGrant
  split
  · exact refl d s
  · split
    · exact refl d s
    · exact of_ports rfl rfl rfl rfl rfl

/-! ### The steps of the sequence, the test and the hold of another daylight -/

theorem endSequence (hx : d ≠ x) : Spares d s (s.endSequence x) :=
  ((((modEjector hx _).trans (setHolder false)).trans (setWaiting hx false)).trans (enterState hx .awaitTakeout)).trans
    closeGrant

theorem strokeGood (hx : d ≠ x) : Spares d s (s.strokeGood x) := by
  unfold State.strokeGood
  dsimp only
  split
  · exact ((modEjector hx _).trans (setFailed hx false)).trans (endSequence hx)
  · exact (modEjector hx _).trans (setFailed hx false)

theorem enterForward (hx : d ≠ x) : Spares d s (s.enterForward x) := by
  unfold State.enterForward
  dsimp only
  split
  · exact (((modEjector hx _).trans (modShot hx _)).trans (setFailed hx false)).trans (strokeGood hx)
  · exact ((modEjector hx _).trans (modShot hx _)).trans (setFailed hx false)

theorem homeReturn (hx : d ≠ x) : Spares d s (s.homeReturn x) := by
  unfold State.homeReturn
  split
  · exact enterForward hx
  · exact endSequence hx

theorem abortSequence (hx : d ≠ x) : Spares d s (s.abortSequence x) := (modShot hx _).trans (endSequence hx)

theorem endTest (hx : d ≠ x) (result : TestResult) : Spares d s (s.endTest x result) :=
  ((modEjector hx _).trans (setHolder false)).trans (setWaiting hx false)

theorem testStrokeGood (hx : d ≠ x) : Spares d s (s.testStrokeGood x) := by
  unfold State.testStrokeGood
  dsimp only
  split
  · exact (modEjector hx _).trans (endTest hx .passed)
  · exact modEjector hx _

theorem testForward (hx : d ≠ x) : Spares d s (s.testForward x) := by
  unfold State.testForward
  dsimp only
  split
  · exact (modEjector hx _).trans (testStrokeGood hx)
  · exact modEjector hx _

theorem handSlot (hx : d ≠ x) : Spares d s (s.handSlot x) := by
  unfold State.handSlot
  split
  · exact enterForward hx
  · split
    · exact testForward hx
    · exact refl d s

theorem holdShot (hx : d ≠ x) (outcome : DemouldOutcome) : Spares d s (s.holdShot outcome x) :=
  ((modShot hx _).trans (enterState hx .held)).trans (raise .held)

end State.Spares

/-! ## A daylight at rest through one report of the press lines -/

namespace State.AtRest

variable {d : Daylight} {s : State}

/-- A daylight whose ejector does something that one at rest does not is another daylight. -/
theorem ne_of_phase (h : s.AtRest d) {x : Daylight} (hx : (s.ejector x).phase ≠ .idle) : d ≠ x := by
  rintro rfl; exact hx h.phase

theorem ne_of_test (h : s.AtRest d) {x : Daylight} (hx : (s.ejector x).test ≠ none) : d ≠ x := by
  rintro rfl; exact hx h.test

theorem ne_of_waits (h : s.AtRest d) {x : Daylight} (hx : s.waits x = true) : d ≠ x := by
  rintro rfl; exact Bool.false_ne_true (h.waits.symm.trans hx)

/-- The Arbiter serves only daylights that wait (R135). -/
theorem arbitrateSlots (h : s.AtRest d) : Spares d s s.arbitrateSlots := by
  refine State.grantSlots_keeps (fun t => Spares d s t) (fun t x rest hmembers _ ht => ?_) 4 s (Spares.refl d s)
  have hwaits : t.waits x = true := by
    have hx : x ∈ t.arbiter.waiting.members := hmembers ▸ List.mem_cons_self
    exact (List.mem_filter.mp hx).2
  have hx : d ≠ x := (ht.atRest h).ne_of_waits hwaits
  exact ht.trans (((Spares.setWaiting hx false).trans (Spares.setHolder true)).trans (Spares.handSlot hx))

theorem spares_arbitrateSlots {t : State} (h : s.AtRest d) (ht : Spares d s t) : Spares d s t.arbitrateSlots :=
  ht.trans (ht.atRest h).arbitrateSlots

/-- Sequences start only out of WAIT_OPEN (R134). -/
theorem startSequences (h : s.AtRest d) : Spares d s s.startSequences := by
  unfold State.startSequences
  split
  · refine h.spares_arbitrateSlots (Spares.each (fun x hx u _ => ?_) h)
    have hphase : (s.ejector x).phase = .waitOpen := by simpa using (List.mem_filter.mp hx).2
    have hne : d ≠ x := h.ne_of_phase (by simp [hphase])
    exact (Spares.modEjector hne _).trans (Spares.setWaiting hne true)
  · exact Spares.refl d s

/-- An abort reaches only sequences that have started and tests in progress (R139, R142). -/
theorem abortEjectors (h : s.AtRest d) (seqs tests : Bool) : Spares d s (s.abortEjectors seqs tests) := by
  have hseqs : ∀ x ∈ (if seqs then s.abortable else []), d ≠ x := by
    intro x hx
    have hx' : x ∈ s.abortable := by cases seqs <;> simp_all
    exact h.ne_of_phase (fun hidle => by simp [State.abortable, hidle] at hx')
  have htests : ∀ x ∈ (if tests then s.testing else []), d ≠ x := by
    intro x hx
    have hx' : x ∈ s.testing := by cases tests <;> simp_all
    exact h.ne_of_test (fun hnone => by simp [State.testing, hnone] at hx')
  unfold State.abortEjectors
  dsimp only
  generalize (if seqs then s.abortable else []) = ds at hseqs
  generalize (if tests then s.testing else []) = ts at htests
  split
  · exact Spares.refl d s
  · have haborted := Spares.each (fun x hx u _ => Spares.abortSequence (s := u) (hseqs x hx)) h
    have hended := Spares.each (fun x hx u _ => Spares.endTest (s := u) (htests x hx) .aborted) (haborted.atRest h)
    exact h.spares_arbitrateSlots (haborted.trans hended)

theorem spares_startSequences {t : State} (h : s.AtRest d) (ht : Spares d s t) : Spares d s t.startSequences :=
  ht.trans (ht.atRest h).startSequences

theorem spares_abortEjectors {t : State} (h : s.AtRest d) (ht : Spares d s t) (seqs tests : Bool) :
    Spares d s (t.abortEjectors seqs tests) := ht.trans ((ht.atRest h).abortEjectors seqs tests)

/-- EJECT_FWD reaches only a FORWARD, of a sequence or of a test (R136, R141). -/
theorem onFwd (h : s.AtRest d) (x : Daylight) : Spares d s (s.onFwd x) := by
  unfold State.onFwd
  split
  · next hphase => exact h.spares_arbitrateSlots (Spares.strokeGood (h.ne_of_phase (by simp [hphase])))
  · split
    · next test htest =>
      split
      · exact h.spares_arbitrateSlots (Spares.testStrokeGood (h.ne_of_test (by simp [htest])))
      · exact Spares.refl d s
    · exact Spares.refl d s

/-- EJECT_HOME reaches only a RETURN, of a sequence or of a test (R137, R141). -/
theorem onHome (h : s.AtRest d) (x : Daylight) : Spares d s (s.onHome x) := by
  unfold State.onHome
  split
  · next hphase => exact h.spares_arbitrateSlots (Spares.homeReturn (h.ne_of_phase (by simp [hphase])))
  · split
    · next test htest =>
      split
      · exact h.spares_arbitrateSlots (Spares.endTest (h.ne_of_test (by simp [htest])) .passed)
      · exact Spares.refl d s
    · exact Spares.refl d s

theorem reportEjector (h : s.AtRest d) (before : LineMonitor) (x : Daylight) :
    Spares d s (s.reportEjector before x) := by
  unfold State.reportEjector
  dsimp only
  have hfwd (b : Bool) : Spares d s (if b then s.onFwd x else s) := by
    cases b
    · exact Spares.refl d s
    · exact h.onFwd x
  split
  · exact (hfwd _).trans (((hfwd _).atRest h).onHome x)
  · exact hfwd _

end State.AtRest

/-! ### The end of a charge touches no daylight -/

theorem State.Spares.offerRecord (d : Daylight) (r : HistRecord) (s : State) : State.Spares d s (s.offerRecord r) := by
  rcases State.offerRecord_cases r s with ⟨_, h⟩ | ⟨_, h⟩ <;> rw [h]
  · exact .of_ports rfl rfl rfl rfl rfl
  · exact .of_raise .dropped rfl rfl rfl rfl rfl

theorem State.Spares.of_recipesFrame {d : Daylight} {s t : State} (h : Frame [.recipes] s t) : State.Spares d s t := by
  have hboard : t.board = s.board := h .board (by simp)
  have hdemould : t.demould = s.demould := h .demould (by simp)
  have harbiter : t.arbiter = s.arbiter := h .arbiter (by simp)
  exact .of_ports (h .lines (by simp)) (by simp only [State.entry, hboard]) (by simp only [State.ejector, hdemould])
    (by simp only [State.waits, harbiter]) (h .ports (by simp))

theorem State.Spares.settleCell (d : Daylight) (s : State) : State.Spares d s s.settleCell := by
  rcases State.settleCell_cases s with ⟨_, _, h⟩ | h <;> rw [h]
  · have happlied := (State.Spares.of_recipesFrame (d := d) (State.applyCopy_frame s)).trans
      (.of_recipesFrame (State.applySelection_frame _))
    exact happlied.trans (.of_raise .recipeApplied rfl rfl rfl rfl rfl)
  · exact .refl d s

theorem State.Spares.breakCharge (d : Daylight) (reason : RejectReason) (s : State) :
    State.Spares d s (s.breakCharge reason) := by
  unfold State.breakCharge State.rejectCharge
  split
  · exact .refl d s
  · dsimp only
    exact (((State.Spares.offerRecord d _ s).trans (.modBuilder _)).trans (.raise .chargeDone)).trans (.settleCell d _)

/-! ### The reports in order -/

theorem State.AtRest.reportMode {d : Daylight} {s : State} (h : s.AtRest d) (before : Mode) :
    State.Spares d s (s.reportMode before) := by
  unfold State.reportMode
  dsimp only
  split
  · exact .refl d s
  · have hbreak (b : Bool) : State.Spares d s (if b then s.breakCharge .mode else s) := by
      cases b
      · exact .refl d s
      · exact .breakCharge d .mode s
    exact h.spares_startSequences (h.spares_abortEjectors (hbreak _) _ _)

theorem State.Spares.reportHold (d : Daylight) (before : HoldReasons) (s : State) :
    State.Spares d s (s.reportHold before) := by
  unfold State.reportHold
  split
  · exact .of_raise .heatHold rfl rfl rfl rfl rfl
  · exact .refl d s

/-- The reports before those of the mould: heat hold and line faults (R29, R30). -/
def State.reportOnsets (before : LineMonitor) (s : State) : State :=
  (s.reportHold before.hold).raiseOnset .lineFault before.faults.any (s.reportHold before.hold).lines.faults.any

theorem State.Spares.reportOnsets (d : Daylight) (before : LineMonitor) (s : State) :
    State.Spares d s (s.reportOnsets before) :=
  (State.Spares.reportHold d before.hold s).trans (.raiseOnset ..)

/-- The report of MOULD_OPEN, what is left of `State.reportMould` once the CURING daylights are held (R134, R139, R142). -/
def State.reportMouldOpen (before : LineMonitor) (s : State) : State :=
  if !(before.line.get .mouldOpen).level && s.level .mouldOpen then s.startSequences
  else if (before.line.get .mouldOpen).level && !s.level .mouldOpen then s.abortEjectors true true
  else s

/-- All the reports that follow the hold of the CURING daylights. -/
def State.reportAfterHold (before : LineMonitor) (s : State) : State :=
  ((s.reportMouldOpen before).each Daylight.all (State.reportEjector before)).reportMode before.mode

/-- Where the hold of R12 stands in one recomputation: after the onsets, before every other report. -/
theorem State.recomputeLines_eq (s : State) :
    s.recomputeLines =
      (let u := State.reportOnsets s.lines { s with lines := s.lines.recompute }
      (if s.level .mouldClosed && !u.level .mouldClosed then u.holdCuring .opened else u).reportAfterHold s.lines) := rfl

theorem State.AtRest.reportMouldOpen {d : Daylight} {s : State} (h : s.AtRest d) (before : LineMonitor) :
    State.Spares d s (s.reportMouldOpen before) := by
  unfold State.reportMouldOpen
  split
  · exact h.startSequences
  · split
    · exact h.abortEjectors true true
    · exact .refl d s

theorem State.AtRest.reportAfterHold {d : Daylight} {s : State} (h : s.AtRest d) (before : LineMonitor) :
    State.Spares d s (s.reportAfterHold before) := by
  have hmould := h.reportMouldOpen before
  have hejectors := hmould.trans
    (.each (items := Daylight.all) (fun x _ u hu => hu.reportEjector before x) (hmould.atRest h))
  exact hejectors.trans ((hejectors.atRest h).reportMode before.mode)

/-! ## The hold of the CURING daylights (R12) -/

/-- The entry of a daylight held with an outcome. -/
def Entry.heldWith (outcome : DemouldOutcome) (e : Entry) : Entry :=
  { e with state := .held, shot := e.shot.map (fun r => { r with outcome := some outcome }) }

@[simp] theorem State.modShot_entry (d e : Daylight) (f : Shot → Shot) (s : State) :
    (s.modShot d f).entry e = if e = d then { s.entry d with shot := (s.entry d).shot.map f } else s.entry e :=
  State.modEntry_entry ..

theorem State.holdShot_entry_self (outcome : DemouldOutcome) (d : Daylight) (s : State) :
    (s.holdShot outcome d).entry d = (s.entry d).heldWith outcome := by
  simp [State.holdShot, Entry.heldWith]

theorem State.holdShot_raised (outcome : DemouldOutcome) (d : Daylight) (s : State) :
    Raised .held (s.holdShot outcome d) ∧ Raised .daylight (s.holdShot outcome d) :=
  ⟨State.raise_raised .held _, (State.raise_raised .daylight _).raise .held⟩

/-- One item of a list without repetition does its own work between others that spare the daylight. -/
theorem State.Spares.each_around {d : Daylight} {f : Daylight → State → State} {items : List Daylight} (hd : d ∈ items)
    (hnodup : items.Nodup) (hf : ∀ x u, d ≠ x → State.Spares d u (f x u)) {s : State} :
    ∃ u, State.Spares d s u ∧ State.Spares d (f d u) (s.each items f) := by
  induction items generalizing s with
  | nil => simp at hd
  | cons x xs ih =>
    obtain ⟨hx, hxs⟩ := List.nodup_cons.mp hnodup
    by_cases hne : d = x
    · subst hne
      refine ⟨s, .refl d s, ?_⟩
      exact State.each_keeps (fun t => State.Spares d (f d s) t) f xs
        (fun y hy t ht => ht.trans (hf y t (fun h => hx (h ▸ hy)))) _ (.refl d _)
    · obtain ⟨u, hu, hrest⟩ := ih ((List.mem_cons.mp hd).resolve_left hne) hxs (s := f x s)
      exact ⟨u, (hf x s hne).trans hu, hrest⟩

theorem State.daylightsIn_nodup (s : State) (states : List DaylightState) : (s.daylightsIn states).Nodup :=
  List.Nodup.filter _ (by decide)

theorem State.mem_daylightsIn {s : State} {states : List DaylightState} {d : Daylight} :
    d ∈ s.daylightsIn states ↔ (s.entry d).state ∈ states := by
  have hall : d ∈ Daylight.all := by cases d <;> decide
  simp [State.daylightsIn, hall]

/-- The hold of the CURING daylights, seen at one of them: its own hold, between those of others. -/
theorem State.holdCuring_curing {s : State} {d : Daylight} (hd : (s.entry d).state = .curing)
    (outcome : DemouldOutcome) :
    ∃ u, State.Spares d s u ∧ State.Spares d (u.holdShot outcome d) (s.holdCuring outcome) :=
  State.Spares.each_around (State.mem_daylightsIn.mpr (by simp [hd])) (s.daylightsIn_nodup _) (fun _ _ hx => .holdShot hx outcome)

theorem State.holdCuring_notCuring {s : State} {d : Daylight} (hd : (s.entry d).state ≠ .curing)
    (outcome : DemouldOutcome) : State.Spares d s (s.holdCuring outcome) := by
  refine State.each_keeps (fun t => State.Spares d s t) _ _ (fun x hx t ht => ht.trans (.holdShot ?_ outcome)) s (.refl d s)
  rintro rfl
  exact hd (by simpa using State.mem_daylightsIn.mp hx)

theorem State.AtRest.holdCuring {s : State} {d : Daylight} (h : s.AtRest d) (outcome : DemouldOutcome) :
    (s.holdCuring outcome).AtRest d :=
  State.each_keeps (State.AtRest d) (State.holdShot outcome) _ (fun _ _ _ ht => ⟨ht.phase, ht.test, ht.waits⟩) s h

/-- A recomputation that leaves MOULD_CLOSED deasserted has held the CURING daylights, when the line was asserted before:
of a daylight at rest the rest of the report only keeps what that hold made. -/
theorem State.recomputeLines_opened {s : State} {d : Daylight} (hrest : s.AtRest d)
    (hclosed : s.level .mouldClosed = true) (hopened : s.recomputeLines.level .mouldClosed = false) :
    ∃ u : State, u.entry d = s.entry d ∧ State.Spares d (u.holdCuring .opened) s.recomputeLines := by
  have hbase : State.AtRest d { s with lines := s.lines.recompute } := ⟨hrest.phase, hrest.test, hrest.waits⟩
  have honsets := State.Spares.reportOnsets d s.lines { s with lines := s.lines.recompute }
  rw [State.recomputeLines_eq] at hopened ⊢
  generalize State.reportOnsets s.lines { s with lines := s.lines.recompute } = u at honsets hopened ⊢
  dsimp only at hopened ⊢
  have hu := honsets.atRest hbase
  refine ⟨u, honsets.entry, ?_⟩
  cases hlevel : u.level .mouldClosed with
  | false =>
    simp only [hclosed, Bool.not_false, Bool.and_self, if_true]
    exact (hu.holdCuring .opened).reportAfterHold s.lines
  | true =>
    have hkept := (hu.reportAfterHold s.lines).level .mouldClosed
    simp [hlevel, hkept] at hopened

theorem State.recomputeLines_holds_curing {s : State} {d : Daylight} (hrest : s.AtRest d)
    (hclosed : s.level .mouldClosed = true) (hopened : s.recomputeLines.level .mouldClosed = false)
    (hd : (s.entry d).state = .curing) :
    s.recomputeLines.entry d = (s.entry d).heldWith .opened ∧ Raised .held s.recomputeLines ∧
      Raised .daylight s.recomputeLines := by
  obtain ⟨u, hentry, hafter⟩ := State.recomputeLines_opened hrest hclosed hopened
  obtain ⟨v, huv, hheld⟩ := State.holdCuring_curing (hentry ▸ hd) .opened
  have hend := hheld.trans hafter
  obtain ⟨hraisedHeld, hraisedDaylight⟩ := State.holdShot_raised .opened d v
  refine ⟨?_, hend.raised _ hraisedHeld, hend.raised _ hraisedDaylight⟩
  rw [hend.entry, State.holdShot_entry_self, huv.entry, hentry]

theorem State.recomputeLines_spares_notCuring {s : State} {d : Daylight} (hrest : s.AtRest d)
    (hclosed : s.level .mouldClosed = true) (hopened : s.recomputeLines.level .mouldClosed = false)
    (hd : (s.entry d).state ≠ .curing) : s.recomputeLines.entry d = s.entry d := by
  obtain ⟨u, hentry, hafter⟩ := State.recomputeLines_opened hrest hclosed hopened
  have hheld := State.holdCuring_notCuring (hentry ▸ hd) .opened
  rw [hafter.entry, hheld.entry, hentry]

/-! ## The debounced level change -/

/-- The lines whose debounce intervals end take their debounced levels (R24). -/
def State.settleLines (expired : List Line) (s : State) : State :=
  s.each expired (fun l s => s.modLine l LineState.settle)

/-- Outside the lines nothing changes, nor the qualification period, nor an interpreted level. -/
structure State.LinesSettled (s t : State) : Prop where
  board : t.board = s.board
  demould : t.demould = s.demould
  arbiter : t.arbiter = s.arbiter
  qualify : t.lines.qualify = s.lines.qualify
  level : ∀ l, t.level l = s.level l

theorem LineState.settle_level (x : LineState) : x.settle.level = x.level := by
  unfold LineState.settle; split <;> rfl

theorem State.modLine_settle_level (l m : Line) (s : State) : (s.modLine l LineState.settle).level m = s.level m := by
  unfold State.level
  rw [State.modLine_line]
  split
  · next h => rw [LineState.settle_level, h]
  · rfl

theorem State.settleLines_settled (expired : List Line) (s : State) : s.LinesSettled (s.settleLines expired) := by
  refine State.each_keeps (fun t => s.LinesSettled t) _ expired (fun l _ t ht => ?_) s ⟨rfl, rfl, rfl, rfl, fun _ => rfl⟩
  exact ⟨ht.board, ht.demould, ht.arbiter, ht.qualify, fun m => (t.modLine_settle_level l m).trans (ht.level m)⟩

theorem State.LinesSettled.entry {s t : State} (h : s.LinesSettled t) (d : Daylight) : t.entry d = s.entry d := by
  simp only [State.entry, h.board]

theorem State.LinesSettled.atRest {s t : State} (h : s.LinesSettled t) {d : Daylight} (hs : s.AtRest d) : t.AtRest d := by
  have hejector : t.ejector d = s.ejector d := by simp only [State.ejector, h.demould]
  have hwaits : t.waits d = s.waits d := by simp only [State.waits, h.arbiter]
  exact ⟨hejector ▸ hs.phase, hejector ▸ hs.test, hwaits.trans hs.waits⟩

/-- After the qualification period the end of a running debounce interval makes one recomputation (R24, R25). -/
theorem exec_debouncedLevelChange_of_running {expired : List Line} {s : State} (hqualified : s.lines.qualify = none)
    (hrunning : ∃ l ∈ expired, (s.lines.line.get l).interval.isSome = true) :
    exec (.debouncedLevelChange expired) s = .next (s.settleLines expired).recomputeLines := by
  have hchanged : expired.any (fun l => (s.lines.line.get l).interval.isSome) = true := List.any_eq_true.mpr hrunning
  have hnone : (s.settleLines expired).lines.qualify.isNone = true := by
    rw [(State.settleLines_settled expired s).qualify, hqualified]; rfl
  exact congrArg Host.Outcome.next (if_pos (Bool.and_eq_true_iff.mpr ⟨hchanged, hnone⟩))

/-! ## The accounted second of a daylight that is not CURING (R84) -/

/-- The entry and the cure state of daylight d are the same. -/
def State.SameCure (d : Daylight) (s t : State) : Prop := t.entry d = s.entry d ∧ t.cure.get d = s.cure.get d

theorem State.completionTest_sameCure {d x : Daylight} (hx : d ≠ x) (dwell : Nat) (c : ShotCure) (s : State) :
    s.SameCure d (s.completionTest dwell c x) := by
  unfold State.completionTest
  split
  · exact ⟨by simp [State.completeCure, hx], rfl⟩
  · exact ⟨rfl, rfl⟩

theorem State.holdShot_sameCure {d x : Daylight} (hx : d ≠ x) (outcome : DemouldOutcome) (s : State) :
    s.SameCure d (s.holdShot outcome x) := ⟨(State.Spares.holdShot hx outcome).entry, rfl⟩

theorem State.setCures_sameCure {d x : Daylight} (hx : d ≠ x) (y : CureState) (c : ShotCure) (s : State) :
    s.SameCure d ((s.setCure x y).setShotCure x c) :=
  ⟨(State.Spares.modShot hx _).entry, by simp [State.setShotCure, hx]⟩

theorem State.SameCure.trans {d : Daylight} {s t u : State} (h : s.SameCure d t) (h' : t.SameCure d u) : s.SameCure d u :=
  ⟨h'.1.trans h.1, h'.2.trans h.2⟩

/-- The second of another daylight, or of one that is not CURING. -/
theorem State.accountSecond_sameCure {d x : Daylight} {s : State} (h : x = d → (s.entry d).state ≠ .curing)
    (r : CureFields) : s.SameCure d (s.accountSecond r x) := by
  unfold State.accountSecond
  split
  · next hcuring =>
    have hx : d ≠ x := by rintro rfl; exact h rfl hcuring
    split
    · exact ⟨rfl, rfl⟩
    · dsimp only
      split
      · unfold State.pausedSecond
        dsimp only
        split
        · exact (State.setCures_sameCure hx _ _ s).trans (State.holdShot_sameCure hx .interrupted _)
        · exact (State.setCures_sameCure hx _ _ s).trans (State.completionTest_sameCure hx ..)
      · exact (State.setCures_sameCure hx _ _ s).trans (State.completionTest_sameCure hx ..)
  · exact ⟨rfl, rfl⟩

theorem exec_perSecondAccounting_sameCure (s : State) :
    ∃ t, exec .perSecondAccounting s = .next t ∧ ∀ d, (s.entry d).state ≠ .curing → s.SameCure d t := by
  refine ⟨_, rfl, fun d hd => ?_⟩
  split
  · exact ⟨rfl, rfl⟩
  · split
    · exact State.each_keeps (fun t => s.SameCure d t) _ _
        (fun x _ t ht => ht.trans (State.accountSecond_sameCure (fun _ => ht.1 ▸ hd) _)) s ⟨rfl, rfl⟩
    · exact ⟨rfl, rfl⟩

/-! ## The obligation -/

/-- Settles O21: a daylight that is CURING, CURED, HELD or LOADED has its ejector at rest, so that of one report of the press
lines only the hold of the CURING daylights reaches it. -/
theorem mouldOpeningHoldsEveryCuringDaylight : Obligations.MouldOpeningHoldsEveryCuringDaylight := by
  unfold Obligations.MouldOpeningHoldsEveryCuringDaylight
  refine ⟨fun expired s hqualified hkept hrunning hclosed => ?_, exec_perSecondAccounting_sameCure⟩
  refine ⟨_, exec_debouncedLevelChange_of_running hqualified hrunning, fun hopened => ?_⟩
  have hsettled := State.settleLines_settled expired s
  have hclosed' := (hsettled.level .mouldClosed).trans hclosed
  constructor
  · intro d hd
    have hrest := hsettled.atRest (hkept.atRest (d := d) (by simp [hd]))
    rw [← hsettled.entry d] at hd ⊢
    exact State.recomputeLines_holds_curing hrest hclosed' hopened hd
  · intro d hd
    have hrest := hsettled.atRest (hkept.atRest (List.mem_cons_of_mem _ hd))
    rw [← hsettled.entry d] at hd ⊢
    exact State.recomputeLines_spares_notCuring hrest hclosed' hopened (fun h => by simp [h] at hd)

end Sys2Proof.Machine
end

section
/-! Proof of R34, R35 and R37 (obligation O22): every channel's history takes the sample of its input. For its second part,
the frame of the channels: the operations of the other blocks, one after another, leave every channel alone, and so do all
commands but four. Of these the second boundary and the trim write leave the histories alone. -/

namespace Sys2Proof.Machine

/-! ## The sample and its place in the history (R34, R35, R37) -/

/-- Appending and then dropping what exceeds four is the push of R37. -/
theorem pushSample_eq (history : List Sample) (x : Sample) :
    pushSample history x = (history ++ [x]).drop (history.length - 3) := by
  unfold pushSample
  split
  · next hshort =>
    have hkeep : history.length - 3 = 0 := by omega
    rw [hkeep, List.drop_zero]
  · rw [List.drop_append_of_le_length (Nat.sub_le ..)]

/-- SAMPLE_COMPLETE changes the channels and the place in the time base, nothing else (R33). -/
theorem execSampleComplete_frame (inputs : Ten Reading) (s : State) :
    ∃ t, execSampleComplete inputs s = .next t ∧ Frame [.channels, .periods] s t ∧
      ∀ z, t.channel z = (s.channel z).take (inputs.get z) := by
  refine ⟨_, rfl, fun b hb => ?_, fun z => Ten.get_tabulate ..⟩
  cases b <;> simp_all [Block.same]

/-! ## Frames of the shared operations -/

/-- A frame that does not list the channels keeps them. -/
theorem Frame.channels_eq {changed : List Block} {s t : State} (h : Frame changed s t) (hnot : .channels ∉ changed) :
    t.channels = s.channels := h .channels hnot

@[simp] theorem State.each_channels {α : Type} {f : α → State → State} (hf : ∀ x u, (f x u).channels = u.channels)
    (items : List α) (s : State) : (s.each items f).channels = s.channels :=
  State.each_keeps (fun t => t.channels = s.channels) f items (fun x _ t ht => (hf x t).trans ht) s rfl

@[simp] theorem State.raiseOnset_channels (k : Notice) (before after : Bool) (s : State) :
    (s.raiseOnset k before after).channels = s.channels := by
  rcases State.raiseOnset_cases k before after s with ⟨-, -, h⟩ | h <;> rw [h]
  rfl

@[simp] theorem State.deliver_channels (p : Port) (op : Nat) (status : Status) (data : List Byte) (s : State) :
    (s.deliver p op status data).channels = s.channels := (State.deliver_frame p op status data s).channels_eq (by simp)

@[simp] theorem State.offerRecord_channels (r : HistRecord) (s : State) : (s.offerRecord r).channels = s.channels :=
  (State.offerRecord_frame r s).channels_eq (by simp)

@[simp] theorem State.settleCell_channels (s : State) : s.settleCell.channels = s.channels :=
  (State.settleCell_frame s).channels_eq (by simp)

@[simp] theorem State.settleBoard_channels (before s : State) :
    (State.settleBoard before s).channels = s.channels := (State.settleBoard_frame before s).channels_eq (by simp)

/-! ## Requests -/

@[simp] theorem refuse_state (status : Status) (detail : Nat) (s : State) : (refuse status detail s).1 = s := rfl
@[simp] theorem accept_state (status : Status) (payload : List Byte) (s : State) : (accept status payload s).1 = s := rfl

/-- The body of a request leaves every channel alone. -/
def ReplyKeepsChannels (body : State → Reply) : Prop := ∀ s, (body s).1.channels = s.channels

/-- A command's outcome is a next state with the same channels. -/
def KeepsChannels (s : State) (o : Outcome) : Prop := ∃ t, o = .next t ∧ t.channels = s.channels

theorem KeepsChannels.of_next {s t : State} (h : t.channels = s.channels) : KeepsChannels s (.next t) := ⟨t, rfl, h⟩

namespace ReplyKeepsChannels

variable {p : Port} {payload : List Byte}

/-- A status read changes nothing. -/
theorem read (fields : State → List Byte) : ReplyKeepsChannels (fun s => accept .ok (fields s) s) := fun _ => rfl

theorem onDaylight {body : Daylight → State → Reply} (h : ∀ d, ReplyKeepsChannels (body d)) :
    ReplyKeepsChannels (onDaylight payload body) := by
  intro s
  unfold Machine.onDaylight
  split
  · rfl
  · exact h _ s

theorem onZone {body : Zone → State → Reply} (h : ∀ z, ReplyKeepsChannels (body z)) :
    ReplyKeepsChannels (onZone payload body) := by
  intro s
  unfold Machine.onZone
  split
  · rfl
  · exact h _ s

theorem onRecipeSlot {body : RecipeSlot → State → Reply} (h : ∀ k, ReplyKeepsChannels (body k)) :
    ReplyKeepsChannels (onRecipeSlot payload body) := by
  intro s
  unfold Machine.onRecipeSlot
  split
  · rfl
  · exact h _ s

theorem request {row : Row} {body : State → Reply} (h : ReplyKeepsChannels body) (s : State) :
    KeepsChannels s (.next (s.request row p payload body)) := by
  refine .of_next (State.request_keeps (fun t => t.channels = s.channels) ?_ (fun t ht => (h t).trans ht) rfl)
  rintro t u ⟨x, rfl, -⟩ ht
  exact ht

end ReplyKeepsChannels

/-! ## Demoulding and ejectors -/

@[simp] theorem State.closeGrant_channels (s : State) : s.closeGrant.channels = s.channels := by
  unfold State.closeGrant
  split
  · rfl
  · split <;> rfl

@[simp] theorem State.endSequence_channels (d : Daylight) (s : State) : (s.endSequence d).channels = s.channels := by
  simp [State.endSequence]

@[simp] theorem State.strokeGood_channels (d : Daylight) (s : State) : (s.strokeGood d).channels = s.channels := by
  unfold State.strokeGood
  dsimp only
  split <;> simp

@[simp] theorem State.enterForward_channels (d : Daylight) (s : State) : (s.enterForward d).channels = s.channels := by
  unfold State.enterForward
  dsimp only
  split <;> simp

@[simp] theorem State.homeReturn_channels (d : Daylight) (s : State) : (s.homeReturn d).channels = s.channels := by
  unfold State.homeReturn
  split <;> simp

@[simp] theorem State.strokeFailed_channels (d : Daylight) (s : State) : (s.strokeFailed d).channels = s.channels := by
  unfold State.strokeFailed
  dsimp only
  split <;> split <;> simp

@[simp] theorem State.returnFailed_channels (d : Daylight) (s : State) : (s.returnFailed d).channels = s.channels := by
  simp [State.returnFailed]

@[simp] theorem State.endTest_channels (d : Daylight) (result : TestResult) (s : State) :
    (s.endTest d result).channels = s.channels := rfl

@[simp] theorem State.testStrokeGood_channels (d : Daylight) (s : State) :
    (s.testStrokeGood d).channels = s.channels := by
  unfold State.testStrokeGood
  dsimp only
  split <;> simp

@[simp] theorem State.testForward_channels (d : Daylight) (s : State) : (s.testForward d).channels = s.channels := by
  unfold State.testForward
  dsimp only
  split <;> simp

@[simp] theorem State.handSlot_channels (d : Daylight) (s : State) : (s.handSlot d).channels = s.channels := by
  unfold State.handSlot
  split
  · simp
  · split <;> simp

@[simp] theorem State.grantSlots_channels (n : Nat) (s : State) : (s.grantSlots n).channels = s.channels := by
  induction n generalizing s with
  | zero => rfl
  | succ n ih =>
    unfold State.grantSlots
    split
    · rfl
    · split
      · simp [ih]
      · rfl

@[simp] theorem State.arbitrateSlots_channels (s : State) : s.arbitrateSlots.channels = s.channels :=
  State.grantSlots_channels 4 s

@[simp] theorem State.startSequences_channels (s : State) : s.startSequences.channels = s.channels := by
  unfold State.startSequences
  split
  · rw [State.arbitrateSlots_channels]
    refine State.each_channels (fun _ _ => ?_) ..
    rfl
  · rfl

@[simp] theorem State.abortSequence_channels (d : Daylight) (s : State) : (s.abortSequence d).channels = s.channels := by
  simp [State.abortSequence]

@[simp] theorem State.abortEjectors_channels (seqs tests : Bool) (s : State) :
    (s.abortEjectors seqs tests).channels = s.channels := by
  unfold State.abortEjectors
  extract_lets aborted ended
  split
  · rfl
  · rw [State.arbitrateSlots_channels, State.each_channels (fun d u => u.endTest_channels d .aborted),
      State.each_channels State.abortSequence_channels]

@[simp] theorem State.abortTestOf_channels (d : Daylight) (s : State) : (s.abortTestOf d).channels = s.channels := by
  unfold State.abortTestOf
  split <;> simp

@[simp] theorem State.onFwd_channels (d : Daylight) (s : State) : (s.onFwd d).channels = s.channels := by
  unfold State.onFwd
  split
  · simp
  · split
    · split <;> simp
    · rfl

@[simp] theorem State.onHome_channels (d : Daylight) (s : State) : (s.onHome d).channels = s.channels := by
  unfold State.onHome
  split
  · simp
  · split
    · split <;> simp
    · rfl

@[simp] theorem State.testTimeout_channels (d : Daylight) (s : State) : (s.testTimeout d).channels = s.channels := by
  unfold State.testTimeout
  split
  · rfl
  · split
    · split <;> simp
    · rfl

@[simp] theorem State.grantDaylight_channels (d : Daylight) (s : State) : (s.grantDaylight d).channels = s.channels := by
  simp [State.grantDaylight]

@[simp] theorem State.demouldGrant_channels (ds : List Daylight) (s : State) :
    (s.demouldGrant ds).channels = s.channels := by
  unfold State.demouldGrant
  rw [State.startSequences_channels, State.each_channels State.grantDaylight_channels]

theorem execStrokeTimerExpiry_keepsChannels (d : Daylight) (s : State) :
    KeepsChannels s (execStrokeTimerExpiry d s) := by
  refine .of_next ?_
  split <;> simp

theorem execReturnTimerExpiry_keepsChannels (d : Daylight) (s : State) :
    KeepsChannels s (execReturnTimerExpiry d s) := by
  refine .of_next ?_
  split <;> simp

theorem demouldRequestBody_keepsChannels : ReplyKeepsChannels demouldRequestBody := by
  intro s
  unfold demouldRequestBody
  split
  · rfl
  · split
    · rfl
    · dsimp only
      split_ifs <;> simp

theorem ejectorTestBody_keepsChannels (d : Daylight) : ReplyKeepsChannels (ejectorTestBody d) := by
  intro s
  unfold ejectorTestBody
  split_ifs <;> simp

theorem slotCountBody_keepsChannels (payload : List Byte) : ReplyKeepsChannels (slotCountBody payload) := by
  intro s
  unfold slotCountBody
  dsimp only
  split <;> simp

/-! ## The Daylight Board -/

@[simp] theorem State.grantPermit_channels (d : Daylight) (s : State) : (s.grantPermit d).channels = s.channels := rfl

@[simp] theorem State.openShot_channels (d : Daylight) (entry : QueueEntry) (late : Bool) (s : State) :
    (s.openShot d entry late).channels = s.channels := rfl

@[simp] theorem State.startCure_channels (target : Nat) (d : Daylight) (s : State) :
    (s.startCure target d).channels = s.channels := rfl

@[simp] theorem State.holdShot_channels (outcome : DemouldOutcome) (d : Daylight) (s : State) :
    (s.holdShot outcome d).channels = s.channels := rfl

@[simp] theorem State.holdCuring_channels (outcome : DemouldOutcome) (s : State) :
    (s.holdCuring outcome).channels = s.channels := State.each_channels (State.holdShot_channels outcome) ..

@[simp] theorem State.closeShot_channels (d : Daylight) (s : State) : (s.closeShot d).channels = s.channels := rfl

@[simp] theorem State.scrap_channels (d : Daylight) (s : State) : (s.scrap d).channels = s.channels := rfl

theorem loadRequestBody_keepsChannels (d : Daylight) : ReplyKeepsChannels (loadRequestBody d) := by
  intro s
  unfold loadRequestBody
  split
  · rfl
  · split
    · rfl
    · split
      · rfl
      · split
        · rfl
        · split_ifs <;> simp

theorem execPermitLapse_keepsChannels (d : Daylight) (s : State) : KeepsChannels s (execPermitLapse d s) := by
  refine .of_next ?_
  split <;> simp

theorem loadCancelBody_keepsChannels (d : Daylight) : ReplyKeepsChannels (loadCancelBody d) := by
  intro s
  unfold loadCancelBody
  split <;> simp

theorem loadDoneBody_keepsChannels (d : Daylight) : ReplyKeepsChannels (loadDoneBody d) := by
  intro s
  unfold loadDoneBody
  split
  · split
    · rfl
    · split <;> simp
  · split
    · rfl
    · split
      · rfl
      · split <;> simp
  · rfl

theorem cureStartBody_keepsChannels : ReplyKeepsChannels cureStartBody := by
  intro s
  unfold cureStartBody
  split
  · rfl
  · dsimp only
    split_ifs
    · rfl
    · rfl
    · rfl
    · split
      · rfl
      · exact State.each_channels (State.startCure_channels s.recipeTarget) ..

theorem forceReleaseBody_keepsChannels : ReplyKeepsChannels forceReleaseBody := by
  intro s
  unfold forceReleaseBody
  dsimp only
  split <;> simp

theorem takeoutDoneBody_keepsChannels (d : Daylight) : ReplyKeepsChannels (takeoutDoneBody d) := by
  intro s
  unfold takeoutDoneBody
  split <;> simp

theorem declareBody_keepsChannels (payload : List Byte) (d : Daylight) :
    ReplyKeepsChannels (declareBody payload d) := by
  intro s
  unfold declareBody
  dsimp only
  split_ifs <;> simp

/-! ## Charges -/

@[simp] theorem State.rejectCharge_channels (reason : RejectReason) (variant : Option Variant) (drift : Option Int)
    (s : State) : (s.rejectCharge reason variant drift).channels = s.channels := by
  unfold State.rejectCharge
  split <;> simp

@[simp] theorem State.breakCharge_channels (reason : RejectReason) (s : State) :
    (s.breakCharge reason).channels = s.channels := State.rejectCharge_channels ..

@[simp] theorem State.acceptCharge_channels (v : Variant) (drift : Int) (life : Nat) (s : State) :
    (s.acceptCharge v drift life).channels = s.channels := by
  unfold State.acceptCharge
  split <;> simp

@[simp] theorem State.completeCharge_channels (l : LayupFields) (v : Variant) (s : State) :
    (s.completeCharge l v).channels = s.channels := by
  unfold State.completeCharge
  dsimp only
  split_ifs <;> simp

@[simp] theorem State.wrongPiece_channels (l : LayupFields) (s : State) : (s.wrongPiece l).channels = s.channels := rfl

@[simp] theorem State.completionCheck_channels (l : LayupFields) (s : State) :
    (s.completionCheck l).channels = s.channels := by
  unfold State.completionCheck
  dsimp only
  split
  · rfl
  · split <;> simp

@[simp] theorem State.takePiece_channels (l : LayupFields) (delta settled : Int) (s : State) :
    (s.takePiece l delta settled).channels = s.channels := by
  unfold State.takePiece
  dsimp only
  split <;> simp

@[simp] theorem State.takeRemoval_channels (l : LayupFields) (delta settled : Int) (s : State) :
    (s.takeRemoval l delta settled).channels = s.channels := by
  unfold State.takeRemoval
  split
  · rfl
  · dsimp only
    split <;> simp

@[simp] theorem State.takeChange_channels (l : LayupFields) (settled : Int) (s : State) :
    (s.takeChange l settled).channels = s.channels := by
  unfold State.takeChange
  dsimp only
  split_ifs <;> simp

@[simp] theorem State.recoveryEvent_channels (l : LayupFields) (settled : Int) (s : State) :
    (s.recoveryEvent l settled).channels = s.channels := by
  unfold State.recoveryEvent
  dsimp only
  split
  · split <;> rfl
  · rfl

@[simp] theorem State.takeTare_channels (l : LayupFields) (settled : Int) (s : State) :
    (s.takeTare l settled).channels = s.channels := rfl

@[simp] theorem State.settleEvent_channels (settled : Int) (s : State) : (s.settleEvent settled).channels = s.channels := by
  unfold State.settleEvent
  split
  · rfl
  · split <;> simp

@[simp] theorem State.overloadEvent_channels (s : State) : s.overloadEvent.channels = s.channels := by
  unfold State.overloadEvent
  split <;> simp

@[simp] theorem State.gapExpiry_channels (s : State) : s.gapExpiry.channels = s.channels := by
  unfold State.gapExpiry
  split
  · split <;> simp
  · rfl

@[simp] theorem State.beginCharge_channels (d : Daylight) (k : RecipeSlot) (l : LayupFields) (s : State) :
    (s.beginCharge d k l).channels = s.channels := rfl

@[simp] theorem State.offerRemoved_channels (e : QueueEntry) (reason : RejectReason) (s : State) :
    (s.offerRemoved e reason).channels = s.channels := State.offerRecord_channels ..

theorem execTareTimerExpiry_keepsChannels (s : State) : KeepsChannels s (execTareTimerExpiry s) := by
  refine .of_next ?_
  split <;> simp

theorem execRecoveryTimerExpiry_keepsChannels (s : State) : KeepsChannels s (execRecoveryTimerExpiry s) := by
  refine .of_next ?_
  split <;> simp

theorem chargeBeginBody_keepsChannels (d : Daylight) : ReplyKeepsChannels (chargeBeginBody d) := by
  intro s
  unfold chargeBeginBody
  split
  · rfl
  · split
    · rfl
    · split
      · dsimp only
        split_ifs
        · rfl
        · rfl
        · split <;> simp
      · rfl

theorem chargeAbortBody_keepsChannels : ReplyKeepsChannels chargeAbortBody := by
  intro s
  unfold chargeAbortBody
  split <;> simp

theorem execChargeQueueExpiry_keepsChannels (s : State) : KeepsChannels s (execChargeQueueExpiry s) := by
  refine .of_next ?_
  split <;> simp

theorem chargeDiscardBody_keepsChannels (d : Daylight) : ReplyKeepsChannels (chargeDiscardBody d) := by
  intro s
  unfold chargeDiscardBody
  split
  · rfl
  · dsimp only
    split <;> simp

/-! ## Cure accounting -/

@[simp] theorem State.completionTest_channels (dwell : Nat) (c : ShotCure) (d : Daylight) (s : State) :
    (s.completionTest dwell c d).channels = s.channels := by
  unfold State.completionTest
  split <;> rfl

@[simp] theorem State.setShotCure_channels (d : Daylight) (c : ShotCure) (s : State) :
    (s.setShotCure d c).channels = s.channels := rfl

@[simp] theorem State.pausedSecond_channels (r : CureFields) (c : ShotCure) (causes : PauseCauses) (d : Daylight)
    (s : State) : (s.pausedSecond r c causes d).channels = s.channels := by
  unfold State.pausedSecond
  dsimp only
  split <;> simp

@[simp] theorem State.countedSecond_channels (r : CureFields) (c : ShotCure) (causes : PauseCauses) (d : Daylight)
    (s : State) : (s.countedSecond r c causes d).channels = s.channels := by
  simp [State.countedSecond]

@[simp] theorem State.accountSecond_channels (r : CureFields) (d : Daylight) (s : State) :
    (s.accountSecond r d).channels = s.channels := by
  unfold State.accountSecond
  split
  · split
    · rfl
    · dsimp only
      split <;> simp
  · rfl

theorem execPerSecondAccounting_keepsChannels (s : State) : KeepsChannels s (execPerSecondAccounting s) := by
  refine .of_next ?_
  split
  · rfl
  · split <;> simp

/-! ## Recipes -/

@[simp] theorem State.writeRecipe_channels (k : RecipeSlot) (apply : ApplyPoint) (r : Recipe) (s : State) :
    (s.writeRecipe k apply r).1.channels = s.channels := by
  unfold State.writeRecipe
  split_ifs <;> rfl

theorem recipeWriteBody_keepsChannels (payload : List Byte) (k : RecipeSlot) :
    ReplyKeepsChannels (recipeWriteBody payload k) := by
  intro s
  unfold recipeWriteBody
  dsimp only
  split
  · exact State.writeRecipe_channels ..
  · rfl

theorem State.select_keepsChannels (choice : Option RecipeSlot) : ReplyKeepsChannels (State.select choice) := by
  intro s
  unfold State.select
  split <;> rfl

theorem activateSlotBody_keepsChannels (k : RecipeSlot) : ReplyKeepsChannels (activateSlotBody k) := by
  intro s
  unfold activateSlotBody
  split
  · rfl
  · exact State.select_keepsChannels (some k) s

theorem execRecipeActivate_keepsChannels (p : Port) (payload : List Byte) (s : State) :
    KeepsChannels s (execRecipeActivate p payload s) := by
  unfold execRecipeActivate
  split
  · exact (State.select_keepsChannels none).request s
  · exact (ReplyKeepsChannels.onRecipeSlot activateSlotBody_keepsChannels).request s

theorem recipeClearBody_keepsChannels (k : RecipeSlot) : ReplyKeepsChannels (recipeClearBody k) := by
  intro s
  unfold recipeClearBody
  split_ifs <;> rfl

/-! ## The Memory Link and the history memory -/

@[simp] theorem State.endSave_channels (status : Status) (s : State) : (s.endSave status).channels = s.channels := by
  unfold State.endSave
  split <;> simp

@[simp] theorem State.endFormat_channels (status : Status) (data : List Byte) (s : State) :
    (s.endFormat status data).channels = s.channels := by
  unfold State.endFormat
  split <;> simp

@[simp] theorem State.enterFault_channels (cause : FaultCause) (s : State) :
    (s.enterFault cause).channels = s.channels := by
  unfold State.enterFault
  dsimp only
  split <;> simp

@[simp] theorem State.failUnlessFormatting_channels (cause : FaultCause) (s : State) :
    (s.failUnlessFormatting cause).channels = s.channels := by
  unfold State.failUnlessFormatting
  split <;> simp

@[simp] theorem State.failOp_channels (op : LinkOp) (cause : FaultCause) (s : State) :
    (s.failOp op cause).channels = s.channels := by
  unfold State.failOp
  dsimp only
  split <;> simp

@[simp] theorem State.failStep_channels (op : LinkOp) (cause : FaultCause) (s : State) :
    (s.failStep op cause).channels = s.channels := State.failOp_channels ..

@[simp] theorem State.verified_channels {next : State → State} (hnext : ∀ u, (next u).channels = u.channels)
    (equal : Bool) (op : LinkOp) (s : State) : (s.verified equal op next).channels = s.channels := by
  unfold State.verified
  split <;> simp [hnext]

@[simp] theorem State.grantFormat_channels (f : FormatRequest) (s : State) : (s.grantFormat f).channels = s.channels := rfl

@[simp] theorem State.grantSave_channels (r : SaveRequest) (s : State) : (s.grantSave r).channels = s.channels := rfl

@[simp] theorem State.grantFlush_channels (s : State) : s.grantFlush.channels = s.channels := by
  unfold State.grantFlush
  dsimp only
  split_ifs <;> simp

@[simp] theorem State.grantRead_channels (p : Port) (s : State) : (s.grantRead p).channels = s.channels := rfl

@[simp] theorem State.chooseFlushOrRead_channels (s : State) : s.chooseFlushOrRead.channels = s.channels := by
  unfold State.chooseFlushOrRead
  split
  · split <;> simp
  · simp
  · simp
  · rfl

@[simp] theorem State.choose_channels (s : State) : s.choose.channels = s.channels := by
  unfold State.choose
  split <;> simp

@[simp] theorem State.recordWritten_channels (s : State) : s.recordWritten.channels = s.channels := by
  unfold State.recordWritten
  split <;> simp

@[simp] theorem State.sectorEntered_channels (seq : Nat) (s : State) : (s.sectorEntered seq).channels = s.channels := rfl

@[simp] theorem State.setSettings_channels (x : SettingsSector) (s : State) : (s.setSettings x).channels = s.channels := rfl

@[simp] theorem State.formatDone_channels (f : FormatRequest) (s : State) : (s.formatDone f).channels = s.channels := by
  simp [State.formatDone]

@[simp] theorem State.formatStored_channels (f : FormatRequest) (image : SettingsImage) (s : State) :
    (s.formatStored f image).channels = s.channels := by
  unfold State.formatStored
  dsimp only
  split <;> simp

@[simp] theorem State.formatStep_channels (f : FormatRequest) (equal : Bool) (step : FormatStep) (s : State) :
    (s.formatStep f equal step).channels = s.channels := by
  unfold State.formatStep
  split
  · simp
  · simp
  · dsimp only
    split <;> simp
  · simp

@[simp] theorem State.discardServed_channels (p : Port) (s : State) : (s.discardServed p).channels = s.channels := by
  unfold State.discardServed
  split
  · split <;> rfl
  · rfl

theorem execLinkArbitration_keepsChannels (s : State) : KeepsChannels s (execLinkArbitration s) := by
  refine .of_next ?_
  split <;> simp

theorem execFlushProgramDone_keepsChannels (equal : Bool) (s : State) :
    KeepsChannels s (execFlushProgramDone equal s) := by
  refine .of_next ?_
  split <;> simp

theorem execSectorEraseDone_keepsChannels (s : State) : KeepsChannels s (execSectorEraseDone s) := by
  refine .of_next ?_
  split <;> simp

theorem execSectorHeaderDone_keepsChannels (equal : Bool) (s : State) :
    KeepsChannels s (execSectorHeaderDone equal s) := by
  refine .of_next ?_
  split
  · exact State.verified_channels (State.sectorEntered_channels _) ..
  · rfl

theorem execSettingsEraseDone_keepsChannels (s : State) : KeepsChannels s (execSettingsEraseDone s) := by
  refine .of_next ?_
  split <;> simp

theorem execSettingsSaveDone_keepsChannels (equal : Bool) (s : State) :
    KeepsChannels s (execSettingsSaveDone equal s) := by
  refine .of_next ?_
  split <;> simp

theorem execFormatStepDone_keepsChannels (equal : Bool) (s : State) :
    KeepsChannels s (execFormatStepDone equal s) := by
  refine .of_next ?_
  split <;> simp

theorem execFlashStepTimeout_keepsChannels (s : State) : KeepsChannels s (execFlashStepTimeout s) := by
  refine .of_next ?_
  split
  · next op _ => cases op.timeoutCause <;> simp
  · rfl

theorem execPortReadDone_keepsChannels (s : State) : KeepsChannels s (execPortReadDone s) := by
  refine .of_next ?_
  split
  · split <;> rfl
  · rfl

theorem historyOpenBody_keepsChannels (p : Port) (payload : List Byte) :
    ReplyKeepsChannels (historyOpenBody p payload) := by
  intro s
  unfold historyOpenBody
  dsimp only
  split <;> simp

theorem State.lineUpRead_keepsChannels (p : Port) : ReplyKeepsChannels (State.lineUpRead p) := by
  intro s
  unfold State.lineUpRead
  dsimp only
  split
  · rfl
  · split
    · rfl
    · split_ifs <;> rfl

theorem historyNextBody_keepsChannels (p : Port) : ReplyKeepsChannels (historyNextBody p) := by
  intro s
  unfold historyNextBody
  split
  · rfl
  · exact State.lineUpRead_keepsChannels p s

theorem settingsSaveBody_keepsChannels (p : Port) : ReplyKeepsChannels (settingsSaveBody p) := by
  intro s
  unfold settingsSaveBody
  split_ifs <;> rfl

theorem historyFormatBody_keepsChannels (p : Port) (payload : List Byte) :
    ReplyKeepsChannels (historyFormatBody p payload) := by
  intro s
  unfold historyFormatBody
  dsimp only
  split_ifs <;> rfl

theorem drainBody_keepsChannels : ReplyKeepsChannels drainBody := by
  intro s
  unfold drainBody
  split
  · rfl
  · split <;> simp

/-! ## The Line Monitor -/

@[simp] theorem State.reportMould_channels (before : LineMonitor) (s : State) :
    (s.reportMould before).channels = s.channels := by
  unfold State.reportMould
  dsimp only
  split_ifs <;> simp

@[simp] theorem State.reportEjector_channels (before : LineMonitor) (d : Daylight) (s : State) :
    (s.reportEjector before d).channels = s.channels := by
  unfold State.reportEjector
  dsimp only
  split_ifs <;> simp

@[simp] theorem State.reportMode_channels (before : Mode) (s : State) : (s.reportMode before).channels = s.channels := by
  unfold State.reportMode
  dsimp only
  split_ifs <;> simp

@[simp] theorem State.reportHold_channels (before : HoldReasons) (s : State) :
    (s.reportHold before).channels = s.channels := by
  unfold State.reportHold
  split <;> rfl

@[simp] theorem State.recomputeLines_channels (s : State) : s.recomputeLines.channels = s.channels := by
  simp [State.recomputeLines]

theorem execRawLevelChange_keepsChannels (l : Line) (asserted : Bool) (s : State) :
    KeepsChannels s (execRawLevelChange l asserted s) := by
  refine .of_next ?_
  split <;> rfl

theorem State.settleLines_channels (expired : List Line) (s : State) :
    (s.settleLines expired).channels = s.channels := by
  unfold State.settleLines
  refine State.each_channels (fun _ _ => ?_) ..
  rfl

theorem execDebouncedLevelChange_keepsChannels (expired : List Line) (s : State) :
    KeepsChannels s (execDebouncedLevelChange expired s) := by
  have hsettled := State.settleLines_channels expired s
  refine .of_next ?_
  split
  · exact (State.recomputeLines_channels _).trans hsettled
  · exact hsettled

theorem execQualificationExpiry_keepsChannels (s : State) : KeepsChannels s (execQualificationExpiry s) := by
  refine .of_next ?_
  split <;> simp

/-! ## Station ports -/

theorem execChipSelectAssert_keepsChannels (p : Port) (s : State) : KeepsChannels s (execChipSelectAssert p s) := by
  refine .of_next ?_
  split <;> rfl

@[simp] theorem State.answerOnly_channels (p : Port) (r : Response) (s : State) :
    (s.answerOnly p r).channels = s.channels := by
  unfold State.answerOnly
  split <;> rfl

theorem noticeMaskBody_keepsChannels (p : Port) (payload : List Byte) :
    ReplyKeepsChannels (noticeMaskBody p payload) := by
  intro s
  unfold noticeMaskBody
  dsimp only
  split <;> rfl

theorem operationResultBody_keepsChannels (p : Port) : ReplyKeepsChannels (operationResultBody p) := by
  intro s
  unfold operationResultBody
  split <;> rfl

theorem portRestartBody_keepsChannels (p : Port) : ReplyKeepsChannels (portRestartBody p) :=
  State.discardServed_channels p

/-! ## The Weigh Front End -/

theorem execSampleArrival_keepsChannels (raw : Int) (saturated : Bool) (s : State) :
    KeepsChannels s (execSampleArrival raw saturated s) := by
  unfold execSampleArrival
  dsimp only
  obtain ⟨w, event⟩ := (s.weigh.take raw saturated).settle
  refine .of_next ?_
  cases event <;> dsimp only [Option.elim] <;> split <;> simp

theorem calibrationBody_keepsChannels (p : Port) (kind : CalKind) (op : OpKind) :
    ReplyKeepsChannels (calibrationBody p kind op) := by
  intro s
  unfold calibrationBody
  split_ifs <;> rfl

@[simp] theorem State.setScale_channels (zero : Int) (span : Nat) (s : State) :
    (s.setScale zero span).channels = s.channels := by
  unfold State.setScale
  split <;> rfl

@[simp] theorem State.endCalibration_channels (c : Calibration) (status : Status) (data : List Byte) (s : State) :
    (s.endCalibration c status data).channels = s.channels := State.deliver_channels ..

@[simp] theorem State.zeroDone_channels (c : Calibration) (s : State) : (s.zeroDone c).channels = s.channels := by
  unfold State.zeroDone
  split <;> simp

@[simp] theorem State.spanDone_channels (c : Calibration) (wref : Nat) (clamped : Bool) (s : State) :
    (s.spanDone c wref clamped).channels = s.channels := by
  unfold State.spanDone
  dsimp only
  split <;> simp

theorem execScaleZeroDone_keepsChannels (s : State) : KeepsChannels s (execScaleZeroDone s) := by
  refine .of_next ?_
  split
  · split <;> simp
  · rfl

theorem execScaleSpanDone_keepsChannels (s : State) : KeepsChannels s (execScaleSpanDone s) := by
  refine .of_next ?_
  split
  · split
    · split <;> simp
    · rfl
  · rfl

/-! ## The Trip Unit -/

@[simp] theorem State.countTrip_channels (z : Zone) (s : State) : (s.countTrip z).channels = s.channels := by
  refine State.each_channels (fun d u => ?_) ..
  split <;> rfl

@[simp] theorem State.takeOnset_channels (z : Zone) (src : Source) (s : State) :
    (s.takeOnset z src).channels = s.channels := by
  unfold State.takeOnset
  dsimp only
  split <;> simp

@[simp] theorem State.onsetTest_channels (z : Zone) (src : Source) (s : State) :
    (s.onsetTest z src).channels = s.channels := by
  unfold State.onsetTest
  split <;> simp

theorem execPerSecondTest_keepsChannels (s : State) : KeepsChannels s (execPerSecondTest s) :=
  .of_next (by simp)

theorem tripClearBody_keepsChannels (payload : List Byte) (z : Zone) :
    ReplyKeepsChannels (tripClearBody payload z) := by
  intro s
  unfold tripClearBody
  split
  · rfl
  · dsimp only
    split_ifs <;> rfl

theorem tripKindBody_keepsChannels (payload : List Byte) (z : Zone) :
    ReplyKeepsChannels (tripKindBody payload z) := by
  intro s
  unfold tripKindBody
  split <;> rfl

/-! ## Zone Controller, Heater Budget, Window Generator -/

@[simp] theorem State.markHeatRevised_channels (s : State) : s.markHeatRevised.channels = s.channels := by
  unfold State.markHeatRevised
  refine State.each_channels (fun _ _ => ?_) ..
  rfl

@[simp] theorem State.applyHeat_channels (s : State) : s.applyHeat.channels = s.channels := by
  unfold State.applyHeat
  split
  · dsimp only
    split <;> simp
  · rfl

@[simp] theorem State.startWindow_channels (s : State) : s.startWindow.channels = s.channels :=
  State.applyHeat_channels _

theorem execWindowStart_keepsChannels (s : State) : KeepsChannels s (execWindowStart s) := by
  refine .of_next ?_
  split <;> simp

theorem execHeaterOnTimeEnd_keepsChannels (z : Zone) (s : State) : KeepsChannels s (execHeaterOnTimeEnd z s) := by
  refine .of_next ?_
  split <;> rfl

theorem zoneModeBody_keepsChannels (payload : List Byte) (z : Zone) :
    ReplyKeepsChannels (zoneModeBody payload z) := by
  intro s
  unfold zoneModeBody
  dsimp only
  split
  · rfl
  · rfl
  · rfl
  · split <;> rfl
  · split <;> rfl

theorem manualDutyBody_keepsChannels (payload : List Byte) (z : Zone) :
    ReplyKeepsChannels (manualDutyBody payload z) := by
  intro s
  unfold manualDutyBody
  split <;> rfl

theorem budgetBody_keepsChannels (payload : List Byte) : ReplyKeepsChannels (budgetBody payload) := by
  intro s
  unfold budgetBody
  dsimp only
  split <;> rfl

theorem loadWeightBody_keepsChannels (payload : List Byte) (z : Zone) :
    ReplyKeepsChannels (loadWeightBody payload z) := by
  intro s
  unfold loadWeightBody
  dsimp only
  split <;> rfl

/-! ## The Thermal Front End -/

theorem Channel.form_history (c : Channel) : c.form.history = c.history := by
  unfold Channel.form
  split <;> rfl

/-- Every history is the same. -/
def State.SameHistories (s t : State) : Prop := ∀ z, (t.channel z).history = (s.channel z).history

/-- A command's outcome is a next state with the same histories. -/
def KeepsHistories (s : State) (o : Outcome) : Prop := ∃ t, o = .next t ∧ s.SameHistories t

theorem State.SameHistories.of_channels {s t : State} (h : t.channels = s.channels) : s.SameHistories t :=
  fun z => by simp only [State.channel, h]

theorem KeepsChannels.keepsHistories {s : State} {o : Outcome} (h : KeepsChannels s o) : KeepsHistories s o := by
  obtain ⟨t, ho, hchannels⟩ := h
  exact ⟨t, ho, .of_channels hchannels⟩

theorem execSecondBoundary_keepsHistories (s : State) : KeepsHistories s (execSecondBoundary s) := by
  refine ⟨_, rfl, fun z => ?_⟩
  split
  · simp [State.channel, Channel.form_history]
  · rfl

theorem trimWriteBody_sameHistories (payload : List Byte) (z : Zone) (s : State) :
    s.SameHistories (trimWriteBody payload z s).1 := by
  intro y
  simp only [trimWriteBody, accept_state, State.settingsChanged_channel, State.modChannel_channel]
  split
  · next h => rw [h]
  · rfl

theorem execTrimWrite_keepsHistories (p : Port) (payload : List Byte) (s : State) :
    KeepsHistories s (execTrimWrite p payload s) := by
  refine ⟨_, rfl, State.request_keeps s.SameHistories ?_ (fun t ht z => ?_) (fun _ => rfl)⟩
  · rintro t u ⟨x, rfl, -⟩ ht
    exact ht
  · unfold onZone
    split
    · exact ht z
    · exact (trimWriteBody_sameHistories payload _ t z).trans (ht z)

/-! ## All commands -/

/-- The commands that write a channel: the reset, the sample, the second boundary and the trim write. -/
def writesChannels : Instr → Bool
  | .deviceReset _ _ | .sampleComplete _ | .secondBoundary | .trimWrite _ _ => true
  | _ => false

theorem exec_keepsChannels {c : Instr} (hc : writesChannels c = false) (s : State) : KeepsChannels s (exec c s) := by
  cases c with
  | deviceReset | sampleComplete | secondBoundary | trimWrite => cases hc
  | rawLevelChange l asserted => exact execRawLevelChange_keepsChannels l asserted s
  | debouncedLevelChange expired => exact execDebouncedLevelChange_keepsChannels expired s
  | qualificationExpiry => exact execQualificationExpiry_keepsChannels s
  | perSecondTest => exact execPerSecondTest_keepsChannels s
  | perSecondAccounting => exact execPerSecondAccounting_keepsChannels s
  | clockSecond => exact KeepsChannels.of_next rfl
  | chargeQueueExpiry => exact execChargeQueueExpiry_keepsChannels s
  | windowStart => exact execWindowStart_keepsChannels s
  | heaterOnTimeEnd z => exact execHeaterOnTimeEnd_keepsChannels z s
  | permitLapse d => exact execPermitLapse_keepsChannels d s
  | sampleArrival raw saturated => exact execSampleArrival_keepsChannels raw saturated s
  | tareTimerExpiry => exact execTareTimerExpiry_keepsChannels s
  | gapTimerExpiry => exact KeepsChannels.of_next s.gapExpiry_channels
  | recoveryTimerExpiry => exact execRecoveryTimerExpiry_keepsChannels s
  | scaleZeroDone => exact execScaleZeroDone_keepsChannels s
  | scaleSpanDone => exact execScaleSpanDone_keepsChannels s
  | strokeTimerExpiry d => exact execStrokeTimerExpiry_keepsChannels d s
  | returnTimerExpiry d => exact execReturnTimerExpiry_keepsChannels d s
  | ejectorTestTimerExpiry d => exact KeepsChannels.of_next (s.testTimeout_channels d)
  | linkArbitration => exact execLinkArbitration_keepsChannels s
  | flushProgramDone equal => exact execFlushProgramDone_keepsChannels equal s
  | sectorEraseDone => exact execSectorEraseDone_keepsChannels s
  | sectorHeaderDone equal => exact execSectorHeaderDone_keepsChannels equal s
  | settingsEraseDone => exact execSettingsEraseDone_keepsChannels s
  | settingsSaveDone equal => exact execSettingsSaveDone_keepsChannels equal s
  | formatStepDone equal => exact execFormatStepDone_keepsChannels equal s
  | portReadDone => exact execPortReadDone_keepsChannels s
  | flashStepTimeout => exact execFlashStepTimeout_keepsChannels s
  | chipSelectAssert p => exact execChipSelectAssert_keepsChannels p s
  | chipSelectDeassert p => exact KeepsChannels.of_next rfl
  | frameError p kind => exact KeepsChannels.of_next (s.answerOnly_channels p _)
  | unknownCommand p code => exact KeepsChannels.of_next (s.answerOnly_channels p _)
  | daylightStatus | lineStatus | zoneStatus | zoneControlRead | budgetStatus | tripStatus | cureStatus | scaleStatus
  | chargeStatus | demouldStatus | recipeStatus | settingsStatus | historyStatus =>
    exact (ReplyKeepsChannels.read _).request s
  | channelRead => exact (ReplyKeepsChannels.onZone fun _ _ => rfl).request s
  | recipeRead => exact (ReplyKeepsChannels.onRecipeSlot fun _ _ => rfl).request s
  | historyOpen p payload => exact (historyOpenBody_keepsChannels p payload).request s
  | historyNext p payload => exact (historyNextBody_keepsChannels p).request s
  | noticeRead p payload => exact ReplyKeepsChannels.request (fun _ => rfl) s
  | noticeMaskWrite p payload => exact (noticeMaskBody_keepsChannels p payload).request s
  | operationResult p payload => exact (operationResultBody_keepsChannels p).request s
  | clockRead p payload => exact (ReplyKeepsChannels.read _).request s
  | portRestart p payload => exact (portRestartBody_keepsChannels p).request s
  | portStatus p payload => exact (ReplyKeepsChannels.read _).request s
  | declare p payload => exact (ReplyKeepsChannels.onDaylight (declareBody_keepsChannels payload)).request s
  | cureStart p payload => exact cureStartBody_keepsChannels.request s
  | demouldRequest p payload => exact demouldRequestBody_keepsChannels.request s
  | ejectorTest p payload => exact (ReplyKeepsChannels.onDaylight ejectorTestBody_keepsChannels).request s
  | tripClear p payload => exact (ReplyKeepsChannels.onZone (tripClearBody_keepsChannels payload)).request s
  | loadRequest p payload => exact (ReplyKeepsChannels.onDaylight loadRequestBody_keepsChannels).request s
  | loadDone p payload => exact (ReplyKeepsChannels.onDaylight loadDoneBody_keepsChannels).request s
  | loadCancel p payload => exact (ReplyKeepsChannels.onDaylight loadCancelBody_keepsChannels).request s
  | takeoutDone p payload => exact (ReplyKeepsChannels.onDaylight takeoutDoneBody_keepsChannels).request s
  | chargeBegin p payload => exact (ReplyKeepsChannels.onDaylight chargeBeginBody_keepsChannels).request s
  | chargeAbort p payload => exact chargeAbortBody_keepsChannels.request s
  | chargeDiscard p payload => exact (ReplyKeepsChannels.onDaylight chargeDiscardBody_keepsChannels).request s
  | forceRelease p payload => exact forceReleaseBody_keepsChannels.request s
  | windowLengthSet p payload => exact ReplyKeepsChannels.request (fun _ => rfl) s
  | zoneModeSet p payload => exact (ReplyKeepsChannels.onZone (zoneModeBody_keepsChannels payload)).request s
  | manualDutyWrite p payload => exact (ReplyKeepsChannels.onZone (manualDutyBody_keepsChannels payload)).request s
  | budgetSet p payload => exact (budgetBody_keepsChannels payload).request s
  | loadWeightWrite p payload => exact (ReplyKeepsChannels.onZone (loadWeightBody_keepsChannels payload)).request s
  | gainsWrite p payload => exact (ReplyKeepsChannels.onZone fun _ _ => rfl).request s
  | tripKindSet p payload => exact (ReplyKeepsChannels.onZone (tripKindBody_keepsChannels payload)).request s
  | stabilityBandWrite p payload => exact ReplyKeepsChannels.request (fun _ => rfl) s
  | scaleZero p payload => exact (calibrationBody_keepsChannels p _ _).request s
  | scaleSpan p payload => exact (calibrationBody_keepsChannels p _ _).request s
  | hydraulicSlotCountWrite p payload => exact (slotCountBody_keepsChannels payload).request s
  | recipeWrite p payload => exact (ReplyKeepsChannels.onRecipeSlot (recipeWriteBody_keepsChannels payload)).request s
  | recipeActivate p payload => exact execRecipeActivate_keepsChannels p payload s
  | recipeClear p payload => exact (ReplyKeepsChannels.onRecipeSlot recipeClearBody_keepsChannels).request s
  | permitTimeWrite p payload => exact ReplyKeepsChannels.request (fun _ => rfl) s
  | settingsSave p payload => exact (settingsSaveBody_keepsChannels p).request s
  | historyFormat p payload => exact (historyFormatBody_keepsChannels p payload).request s
  | drain p payload => exact drainBody_keepsChannels.request s
  | clockSet p payload => exact ReplyKeepsChannels.request (fun _ => rfl) s

/-- Every command but SAMPLE_COMPLETE and DEVICE_RESET keeps the histories. -/
theorem exec_keepsHistories {c : Instr} (hsample : ∀ inputs, c ≠ .sampleComplete inputs)
    (hreset : ∀ straps memory, c ≠ .deviceReset straps memory) (s : State) : KeepsHistories s (exec c s) := by
  cases c with
  | deviceReset straps memory => exact absurd rfl (hreset straps memory)
  | sampleComplete inputs => exact absurd rfl (hsample inputs)
  | secondBoundary => exact execSecondBoundary_keepsHistories s
  | trimWrite p payload => exact execTrimWrite_keepsHistories p payload s
  | _ => exact (exec_keepsChannels rfl s).keepsHistories

/-! ## The obligation -/

/-- Settles O22: the push of R37 is an append and a drop, and of the other commands only the second boundary and the trim
write change a channel, neither of them its history. -/
theorem sampleJoinsEveryHistory : Obligations.SampleJoinsEveryHistory := by
  unfold Obligations.SampleJoinsEveryHistory
  constructor
  · intro inputs s sample
    have hclassify : ∀ trim reading, classify trim reading = sample trim reading := by
      rintro trim (_ | _) <;> rfl
    obtain ⟨t, ht, hframe, htake⟩ := execSampleComplete_frame inputs s
    refine ⟨t, ht, hframe, fun z => ?_⟩
    rw [htake, Channel.take, pushSample_eq, hclassify]
  · intro c s t ht hsample hreset
    obtain ⟨u, hu, hsame⟩ := exec_keepsHistories hsample hreset s
    obtain rfl : t = u := Host.Outcome.next.inj (ht.symm.trans hu)
    exact hsame

end Sys2Proof.Machine
end

section
/-! Proofs about the station ports: chip select (R181, obligation O9), the notice read and the notice mask (R185, obligation
O14), the port restart (R187, obligation O17). All that each does to the ports is one update of its own port. -/

namespace Sys2Proof.Machine

/-! ## One update of one port -/

theorem State.modPort_otherPorts (p : Port) (f : PortState → PortState) (s : State) : OtherPorts p s (s.modPort p f) :=
  fun q hq => by rw [State.modPort_port, if_neg hq]

theorem State.modPort_frame (p : Port) (f : PortState → PortState) (s : State) : Frame [.ports] s (s.modPort p f) := by
  intro b hb
  cases b <;> simp_all [Block.same]

theorem State.modPort_port_self (p : Port) (f : PortState → PortState) (s : State) :
    (s.modPort p f).port p = f (s.port p) := by
  rw [State.modPort_port, if_pos rfl]

/-- A request that updates its own port, from the entry to WORKING to the response, as one update. -/
theorem State.respond_modPort_enterWorking (p : Port) (f : PortState → PortState) (r : Response) (s : State) :
    ((s.enterWorking p).modPort p f).respond p r
      = s.modPort p (fun q => { f { q with recv := .working } with response := some r }) := by
  cases p <;> rfl

/-- A request whose body accepts with an update of its own port changes that port alone. -/
theorem State.request_modPort {row : Row} {p : Port} {payload : List Byte} {s : State} (h : Taken row p payload s)
    {body : State → Reply} {f : PortState → PortState} {r : Response}
    (hb : body (s.enterWorking p) = ((s.enterWorking p).modPort p f, r)) :
    ∃ t, (Host.Outcome.next (s.request row p payload body) : Outcome) = .next t ∧ OtherPorts p s t ∧ Frame [.ports] s t ∧
      t.port p = { f { s.port p with recv := .working } with response := some r } := by
  rw [State.request_taken h, hb, State.respond_modPort_enterWorking]
  exact ⟨_, rfl, State.modPort_otherPorts p _ s, State.modPort_frame p _ s, State.modPort_port_self p _ s⟩

/-- A request of a port that its row does not list (R179). -/
theorem State.next_request_denied {row : Row} {p : Port} {s : State} (hrecv : (s.port p).recv = .request)
    (hrole : (s.port p).role ∉ row.roles) (payload : List Byte) (body : State → Reply) :
    (Host.Outcome.next (s.request row p payload body) : Outcome) = .next (s.answered p ⟨.denied, 0, []⟩) :=
  congrArg Host.Outcome.next (State.request_denied hrecv hrole body)

/-- "All" in the summary leaves out a port that is OFF (R178, R189). -/
theorem off_not_mem_rolesAll {role : Role} (h : role = .off) : role ∉ rolesAll := by
  subst h
  decide

/-! ## Chip select (R180, R181, R188) -/

theorem execChipSelectAssert_unselected {p : Port} {s : State} (h : (s.port p).selected = false) :
    execChipSelectAssert p s
      = .next (s.modPort p (fun q => { q with selected := true, recv := .request, response := none, clocked := 0 })) := by
  simp [execChipSelectAssert, h]

theorem execChipSelectAssert_selected {p : Port} {s : State} (h : (s.port p).selected = true) :
    execChipSelectAssert p s = .next s := by
  simp [execChipSelectAssert, h]

/-- Settles O9: both edges of chip select are one update of the port. -/
theorem chipSelectBeginsAndEndsTransactions : Obligations.ChipSelectBeginsAndEndsTransactions := by
  unfold Obligations.ChipSelectBeginsAndEndsTransactions
  intro p s
  refine ⟨⟨_, rfl, ?_, State.modPort_otherPorts p _ s, State.modPort_frame p _ s⟩, fun h => ?_, fun h => ?_⟩
  · exact State.modPort_port_self ..
  · exact execChipSelectAssert_unselected h
  · exact execChipSelectAssert_selected h

/-! ## Notices (R184, R185) -/

/-- The receive state of a port is no condition of a level kind (R184). -/
@[simp] theorem State.enterWorking_levelNotices (p : Port) (s : State) :
    (s.enterWorking p).levelNotices = s.levelNotices := rfl

theorem noticeReadBody_enterWorking (p : Port) (s : State) :
    noticeReadBody p (s.enterWorking p)
      = ((s.enterWorking p).modPort p (fun q => { q with notices := s.levelNotices }),
        ⟨.ok, 0, u32 (s.port p).notices.toNat ++ u8 (groupSummary (s.port p).notices)⟩) := by
  simp [noticeReadBody, accept]

/-- The number that four bytes spell, least significant first (R190). -/
theorem field_four (b0 b1 b2 b3 : Byte) :
    field [b0, b1, b2, b3] 0 4 = b0.toNat + 256 * b1.toNat + 65536 * b2.toNat + 16777216 * b3.toNat := by
  simp only [field, number, List.drop_zero, List.take_succ_cons, List.take_zero]
  omega

/-- The kinds are bits 0 to 18 (R184): a mask stays below bit 19 exactly when its last byte is 0 and the byte before it is
below 8. -/
theorem le_noticeMask_iff (b0 b1 b2 b3 : Byte) :
    2 ^ 19 ≤ field [b0, b1, b2, b3] 0 4 ↔ 8 ≤ b2.toNat ∨ b3 ≠ 0#8 := by
  have hb3 : b3 ≠ 0#8 ↔ 1 ≤ b3.toNat := by
    rw [Nat.one_le_iff_ne_zero, Ne, Ne, BitVec.toNat_eq, BitVec.toNat_ofNat, Nat.zero_mod]
  have h0 := b0.isLt
  have h1 := b1.isLt
  rw [field_four, hb3]
  omega

theorem toNat_append_byte {n : Nat} (x : BitVec n) (b : Byte) : (x ++ b).toNat = 256 * x.toNat + b.toNat := by
  rw [BitVec.toNat_append, ← Nat.shiftLeft_add_eq_or_of_lt b.isLt, Nat.shiftLeft_eq, Nat.mul_comm]

theorem ofNat_field_four (b0 b1 b2 b3 : Byte) :
    BitVec.ofNat 32 (field [b0, b1, b2, b3] 0 4) = b3 ++ b2 ++ b1 ++ b0 := by
  apply BitVec.eq_of_toNat_eq
  rw [field_four, BitVec.toNat_ofNat, toNat_append_byte, toNat_append_byte, toNat_append_byte]
  omega

/-- A notice mask write with bits 19 to 31 clear replaces the mask (R185). -/
theorem noticeMaskBody_valid (p : Port) {b0 b1 b2 b3 : Byte} (h : b2.toNat < 8 ∧ b3 = 0#8) (s : State) :
    noticeMaskBody p [b0, b1, b2, b3] s = (s.modPort p (fun q => { q with mask := b3 ++ b2 ++ b1 ++ b0 }), ⟨.ok, 0, []⟩) := by
  have hlow : ¬ 2 ^ 19 ≤ field [b0, b1, b2, b3] 0 4 := by
    rw [le_noticeMask_iff]
    rintro (h2 | h3)
    · exact Nat.not_le_of_lt h.1 h2
    · exact h3 h.2
  simp only [noticeMaskBody, if_neg hlow, ofNat_field_four, accept]

/-- With any of them set it is refused (R185). -/
theorem noticeMaskBody_invalid (p : Port) {b0 b1 b2 b3 : Byte} (h : 8 ≤ b2.toNat ∨ b3 ≠ 0#8) (s : State) :
    noticeMaskBody p [b0, b1, b2, b3] s = (s, ⟨.badValue, 0, []⟩) := by
  simp only [noticeMaskBody, if_pos ((le_noticeMask_iff b0 b1 b2 b3).mpr h), refuse]

/-- The attention line (R185): some kind is both set and enabled. -/
theorem PortState.attention_iff (q : PortState) :
    q.attention = true ↔ ∃ i, q.notices.getLsbD i = true ∧ q.mask.getLsbD i = true := by
  rw [PortState.attention, bne_iff_ne, ← not_iff_not, not_ne_iff]
  constructor
  · rintro hzero ⟨i, hset, henabled⟩
    have hbit := congrArg (fun w => w.getLsbD i) hzero
    simp [hset, henabled] at hbit
  · intro hnone
    apply BitVec.eq_of_getLsbD_eq
    intro i _
    rw [BitVec.getLsbD_and, BitVec.getLsbD_zero, Bool.and_eq_false_imp]
    exact fun hset => Bool.eq_false_iff.mpr (fun henabled => hnone ⟨i, hset, henabled⟩)

/-- Settles O14: read and write are each one update of the port that asks. -/
theorem noticeReadAndMaskWrite : Obligations.NoticeReadAndMaskWrite := by
  unfold Obligations.NoticeReadAndMaskWrite
  refine ⟨fun p payload s hrecv hoff => ?_, fun p s hrecv hrole => ?_, fun p s => PortState.attention_iff _⟩
  · have hrole := off_not_mem_rolesAll hoff
    exact ⟨State.next_request_denied hrecv hrole payload _, State.next_request_denied hrecv hrole payload _⟩
  · refine ⟨State.request_modPort ⟨hrecv, hrole, rfl⟩ (noticeReadBody_enterWorking p s), fun b0 b1 b2 b3 => ?_⟩
    have htaken : Taken Summary.noticeMaskWrite p [b0, b1, b2, b3] s := ⟨hrecv, hrole, rfl⟩
    exact ⟨fun hvalid => State.request_modPort htaken (noticeMaskBody_valid p hvalid _),
      fun hinvalid => congrArg Host.Outcome.next (State.request_answered htaken (noticeMaskBody_invalid p hinvalid _))⟩

/-! ## Port restart (R174, R187) -/

/-- The discard of the answer of a read that the Memory Link serves (R174): the read goes on, marked. -/
theorem State.discardServed_cases (p : Port) (s : State) :
    ((∃ d, s.link.op = some (.portRead p d)) ∧
        s.discardServed p = { s with link := { s.link with op := some (.portRead p true) } }) ∨
      ((¬ ∃ d, s.link.op = some (.portRead p d)) ∧ s.discardServed p = s) := by
  unfold State.discardServed
  split
  · next q d hop =>
    split
    · next heq => subst heq; exact .inl ⟨⟨d, hop⟩, rfl⟩
    · next hne =>
      refine .inr ⟨fun ⟨d', hop'⟩ => hne ?_, rfl⟩
      injection hop.symm.trans hop' with hread
      injection hread
  · next hother => exact .inr ⟨fun ⟨d, hop⟩ => hother p d hop, rfl⟩

theorem State.discardServed_frame (p : Port) (s : State) : Frame [.link] s (s.discardServed p) := by
  rcases State.discardServed_cases p s with ⟨-, h⟩ | ⟨-, h⟩ <;> rw [h]
  · intro b hb
    cases b <;> simp_all [Block.same]
  · exact Frame.refl _ _

theorem State.discardServed_port (p q : Port) (s : State) : (s.discardServed p).port q = s.port q :=
  congrArg (fun ports => ports.get q) (State.discardServed_frame p s .ports (by simp))

theorem State.discardServed_enterWorking (p : Port) (s : State) :
    (s.enterWorking p).discardServed p = (s.discardServed p).enterWorking p := by
  simp only [State.discardServed, State.enterWorking_link]
  split
  · split <;> rfl
  · rfl

/-- The port that a restart leaves (R187), with the level notices in force. -/
def PortState.restarted (levels : NoticeWord) (q : PortState) : PortState :=
  { q with notices := levels, mask := 0#32, slot := .idle, cursorValid := false, read := .idle }

/-- With every kind disabled no kind asserts the attention line (R185, R187). -/
theorem PortState.attention_of_mask_zero {q : PortState} (h : q.mask = 0#32) : q.attention = false := by
  simp [PortState.attention, h]

/-- A port restart that is taken: the discard, then one update of the port. -/
theorem execPortRestart_taken {p : Port} {s : State} (h : Taken Summary.portRestart p [] s) :
    execPortRestart p [] s = .next ((s.discardServed p).modPort p (fun q =>
      { PortState.restarted s.levelNotices { q with recv := .working } with response := some ⟨.ok, 0, []⟩ })) := by
  rw [execPortRestart, State.request_taken h]
  simp only [portRestartBody, accept, State.enterWorking_levelNotices, State.discardServed_enterWorking]
  exact congrArg Host.Outcome.next (State.respond_modPort_enterWorking p (PortState.restarted s.levelNotices) _ _)

/-- Settles O17: the link's mark and the update of the port are all that a restart does. -/
theorem portRestartReturnsThePortToItsStart : Obligations.PortRestartReturnsThePortToItsStart := by
  unfold Obligations.PortRestartReturnsThePortToItsStart
  refine ⟨fun p payload s hrecv hoff => ?_, fun p s hrecv hrole => ?_⟩
  · have hrole := off_not_mem_rolesAll hoff
    exact State.next_request_denied hrecv hrole payload _
  · refine ⟨_, execPortRestart_taken ⟨hrecv, hrole, rfl⟩, fun q hq => ?_, ?_, ?_, ?_, ?_⟩
    · exact (State.modPort_otherPorts p _ _ q hq).trans (State.discardServed_port p q s)
    · exact ((State.discardServed_frame p s).mono (by simp)).trans ((State.modPort_frame p _ _).mono (by simp))
    · rw [State.modPort_port_self, State.discardServed_port]
      rfl
    · rw [State.modPort_port_self]
      exact PortState.attention_of_mask_zero rfl
    · rw [State.modPort_link]
      rcases State.discardServed_cases p s with ⟨hserved, h⟩ | ⟨hnot, h⟩
      · rw [h, if_pos hserved]
      · rw [h, if_neg hnot]

end Sys2Proof.Machine
end

section
/-! Proof of R186 (obligation O16). Its last part is a frame: every command but CLOCK_SECOND, CLOCK_SET and DEVICE_RESET keeps
the Clock. The shared operations come first, each with the equation of its clock, in the order of the blocks that own them;
where an operation has a frame already, the equation is read off it. -/

namespace Sys2Proof.Machine

/-! ## The shared operations -/

/-- A frame that does not list the Clock keeps it. -/
theorem Frame.clock_eq {changed : List Block} {s t : State} (h : Frame changed s t) (hnot : .clock ∉ changed) :
    t.clock = s.clock := h .clock hnot

/-- The ejectors have no part in the Clock. -/
theorem EjectorStep.clock_eq {s t : State} (h : EjectorStep s t) : t.clock = s.clock :=
  h.1.clock_eq (by simp [ejectorBlocks])

@[simp] theorem State.each_clock {α : Type} {f : α → State → State} (hf : ∀ x u, (f x u).clock = u.clock)
    (items : List α) (s : State) : (s.each items f).clock = s.clock :=
  State.each_keeps (fun t => t.clock = s.clock) f items (fun x _ t ht => (hf x t).trans ht) s rfl

@[simp] theorem State.raiseOnset_clock (k : Notice) (before after : Bool) (s : State) :
    (s.raiseOnset k before after).clock = s.clock := by
  unfold State.raiseOnset
  split <;> simp

@[simp] theorem State.deliver_clock (p : Port) (op : Nat) (status : Status) (data : List Byte) (s : State) :
    (s.deliver p op status data).clock = s.clock := (State.deliver_frame p op status data s).clock_eq (by simp)

@[simp] theorem State.offerRecord_clock (r : HistRecord) (s : State) : (s.offerRecord r).clock = s.clock :=
  (State.offerRecord_frame r s).clock_eq (by simp)

@[simp] theorem State.settleCell_clock (s : State) : s.settleCell.clock = s.clock :=
  (State.settleCell_frame s).clock_eq (by simp)

@[simp] theorem State.settleBoard_clock (before s : State) : (State.settleBoard before s).clock = s.clock :=
  (State.settleBoard_frame before s).clock_eq (by simp)

/-! ## Demoulding and ejectors -/

@[simp] theorem State.arbitrateSlots_clock (s : State) : s.arbitrateSlots.clock = s.clock :=
  s.arbitrateSlots_step.clock_eq

@[simp] theorem State.strokeFailed_clock (d : Daylight) (s : State) : (s.strokeFailed d).clock = s.clock :=
  (s.strokeFailed_step d).clock_eq

@[simp] theorem State.returnFailed_clock (d : Daylight) (s : State) : (s.returnFailed d).clock = s.clock :=
  (s.returnFailed_step d).clock_eq

@[simp] theorem State.testTimeout_clock (d : Daylight) (s : State) : (s.testTimeout d).clock = s.clock :=
  (s.testTimeout_step d).clock_eq

@[simp] theorem State.startSequences_clock (s : State) : s.startSequences.clock = s.clock := s.startSequences_step.clock_eq

@[simp] theorem State.abortEjectors_clock (seqs tests : Bool) (s : State) : (s.abortEjectors seqs tests).clock = s.clock :=
  (s.abortEjectors_step seqs tests).clock_eq

@[simp] theorem State.abortTestOf_clock (d : Daylight) (s : State) : (s.abortTestOf d).clock = s.clock :=
  (s.abortTestOf_step d).clock_eq

@[simp] theorem State.onFwd_clock (d : Daylight) (s : State) : (s.onFwd d).clock = s.clock := (s.onFwd_step d).clock_eq

@[simp] theorem State.onHome_clock (d : Daylight) (s : State) : (s.onHome d).clock = s.clock := (s.onHome_step d).clock_eq

@[simp] theorem State.grantDaylight_clock (d : Daylight) (s : State) : (s.grantDaylight d).clock = s.clock :=
  (s.grantDaylight_step d).clock_eq

@[simp] theorem State.demouldGrant_clock (ds : List Daylight) (s : State) : (s.demouldGrant ds).clock = s.clock := by
  simp [State.demouldGrant]

@[simp] theorem demouldRequestBody_clock (s : State) : (demouldRequestBody s).1.clock = s.clock := by
  unfold demouldRequestBody
  dsimp only
  repeat' split
  all_goals simp

@[simp] theorem ejectorTestBody_clock (d : Daylight) (s : State) : (ejectorTestBody d s).1.clock = s.clock := by
  unfold ejectorTestBody
  split_ifs <;> simp

@[simp] theorem slotCountBody_clock (payload : List Byte) (s : State) : (slotCountBody payload s).1.clock = s.clock := by
  unfold slotCountBody
  dsimp only
  split <;> simp

/-! ## The Daylight Board -/

@[simp] theorem State.openShot_clock (d : Daylight) (entry : QueueEntry) (late : Bool) (s : State) :
    (s.openShot d entry late).clock = s.clock := rfl

@[simp] theorem State.startCure_clock (target : Nat) (d : Daylight) (s : State) : (s.startCure target d).clock = s.clock := rfl

@[simp] theorem State.holdShot_clock (outcome : DemouldOutcome) (d : Daylight) (s : State) :
    (s.holdShot outcome d).clock = s.clock := rfl

@[simp] theorem State.holdCuring_clock (outcome : DemouldOutcome) (s : State) : (s.holdCuring outcome).clock = s.clock :=
  State.each_clock (State.holdShot_clock outcome) ..

@[simp] theorem loadRequestBody_clock (d : Daylight) (s : State) : (loadRequestBody d s).1.clock = s.clock := by
  unfold loadRequestBody
  repeat' split
  all_goals rfl

@[simp] theorem loadCancelBody_clock (d : Daylight) (s : State) : (loadCancelBody d s).1.clock = s.clock := by
  unfold loadCancelBody
  split <;> simp

@[simp] theorem loadDoneBody_clock (d : Daylight) (s : State) : (loadDoneBody d s).1.clock = s.clock := by
  unfold loadDoneBody
  repeat' split
  all_goals simp

@[simp] theorem cureStartBody_clock (s : State) : (cureStartBody s).1.clock = s.clock := by
  unfold cureStartBody
  dsimp only
  repeat' split
  all_goals simp [State.each_clock (State.startCure_clock s.recipeTarget)]

@[simp] theorem forceReleaseBody_clock (s : State) : (forceReleaseBody s).1.clock = s.clock := by
  unfold forceReleaseBody
  dsimp only
  split <;> simp

@[simp] theorem takeoutDoneBody_clock (d : Daylight) (s : State) : (takeoutDoneBody d s).1.clock = s.clock := by
  unfold takeoutDoneBody
  split <;> simp [State.closeShot]

@[simp] theorem declareBody_clock (payload : List Byte) (d : Daylight) (s : State) :
    (declareBody payload d s).1.clock = s.clock := by
  unfold declareBody
  dsimp only
  split_ifs <;> simp [State.scrap]

@[simp] theorem permitTimeBody_clock (payload : List Byte) (s : State) : (permitTimeBody payload s).1.clock = s.clock := rfl

/-! ## Charges -/

@[simp] theorem State.rejectCharge_clock (reason : RejectReason) (variant : Option Variant) (drift : Option Int)
    (s : State) : (s.rejectCharge reason variant drift).clock = s.clock := by
  unfold State.rejectCharge
  split <;> simp

@[simp] theorem State.breakCharge_clock (reason : RejectReason) (s : State) : (s.breakCharge reason).clock = s.clock :=
  State.rejectCharge_clock ..

@[simp] theorem State.acceptCharge_clock (v : Variant) (drift : Int) (life : Nat) (s : State) :
    (s.acceptCharge v drift life).clock = s.clock := by
  unfold State.acceptCharge
  split <;> simp

@[simp] theorem State.completeCharge_clock (l : LayupFields) (v : Variant) (s : State) :
    (s.completeCharge l v).clock = s.clock := by
  unfold State.completeCharge
  dsimp only
  split_ifs <;> simp

@[simp] theorem State.wrongPiece_clock (l : LayupFields) (s : State) : (s.wrongPiece l).clock = s.clock := rfl

@[simp] theorem State.completionCheck_clock (l : LayupFields) (s : State) : (s.completionCheck l).clock = s.clock := by
  unfold State.completionCheck
  dsimp only
  repeat' split
  all_goals simp

@[simp] theorem State.takePiece_clock (l : LayupFields) (delta settled : Int) (s : State) :
    (s.takePiece l delta settled).clock = s.clock := by
  unfold State.takePiece
  dsimp only
  split <;> simp

@[simp] theorem State.takeRemoval_clock (l : LayupFields) (delta settled : Int) (s : State) :
    (s.takeRemoval l delta settled).clock = s.clock := by
  unfold State.takeRemoval
  dsimp only
  split
  · rfl
  · split <;> rfl

@[simp] theorem State.takeChange_clock (l : LayupFields) (settled : Int) (s : State) :
    (s.takeChange l settled).clock = s.clock := by
  unfold State.takeChange
  dsimp only
  split_ifs <;> simp

@[simp] theorem State.recoveryEvent_clock (l : LayupFields) (settled : Int) (s : State) :
    (s.recoveryEvent l settled).clock = s.clock := by
  unfold State.recoveryEvent
  dsimp only
  repeat' split
  all_goals rfl

@[simp] theorem State.takeTare_clock (l : LayupFields) (settled : Int) (s : State) :
    (s.takeTare l settled).clock = s.clock := rfl

@[simp] theorem State.settleEvent_clock (settled : Int) (s : State) : (s.settleEvent settled).clock = s.clock := by
  unfold State.settleEvent
  repeat' split
  all_goals simp

@[simp] theorem State.overloadEvent_clock (s : State) : s.overloadEvent.clock = s.clock := by
  unfold State.overloadEvent
  split <;> simp

@[simp] theorem State.gapExpiry_clock (s : State) : s.gapExpiry.clock = s.clock := by
  unfold State.gapExpiry
  repeat' split
  all_goals simp

@[simp] theorem State.beginCharge_clock (d : Daylight) (k : RecipeSlot) (l : LayupFields) (s : State) :
    (s.beginCharge d k l).clock = s.clock := rfl

@[simp] theorem State.offerRemoved_clock (e : QueueEntry) (reason : RejectReason) (s : State) :
    (s.offerRemoved e reason).clock = s.clock := State.offerRecord_clock ..

@[simp] theorem chargeBeginBody_clock (d : Daylight) (s : State) : (chargeBeginBody d s).1.clock = s.clock := by
  unfold chargeBeginBody
  dsimp only
  repeat' split
  all_goals simp

@[simp] theorem chargeAbortBody_clock (s : State) : (chargeAbortBody s).1.clock = s.clock := by
  unfold chargeAbortBody
  split <;> simp

@[simp] theorem chargeDiscardBody_clock (d : Daylight) (s : State) : (chargeDiscardBody d s).1.clock = s.clock := by
  unfold chargeDiscardBody
  dsimp only
  repeat' split
  all_goals simp

/-! ## Cure accounting -/

@[simp] theorem State.completionTest_clock (dwell : Nat) (c : ShotCure) (d : Daylight) (s : State) :
    (s.completionTest dwell c d).clock = s.clock := by
  unfold State.completionTest
  split <;> rfl

@[simp] theorem State.setShotCure_clock (d : Daylight) (c : ShotCure) (s : State) :
    (s.setShotCure d c).clock = s.clock := rfl

@[simp] theorem State.pausedSecond_clock (r : CureFields) (c : ShotCure) (causes : PauseCauses) (d : Daylight)
    (s : State) : (s.pausedSecond r c causes d).clock = s.clock := by
  unfold State.pausedSecond
  dsimp only
  split <;> simp

@[simp] theorem State.countedSecond_clock (r : CureFields) (c : ShotCure) (causes : PauseCauses) (d : Daylight)
    (s : State) : (s.countedSecond r c causes d).clock = s.clock := by
  simp [State.countedSecond]

@[simp] theorem State.accountSecond_clock (r : CureFields) (d : Daylight) (s : State) :
    (s.accountSecond r d).clock = s.clock := by
  unfold State.accountSecond
  dsimp only
  repeat' split
  all_goals simp

/-! ## Recipes -/

@[simp] theorem recipeWriteBody_clock (payload : List Byte) (k : RecipeSlot) (s : State) :
    (recipeWriteBody payload k s).1.clock = s.clock := by
  unfold recipeWriteBody
  dsimp only
  split
  · dsimp only [State.writeRecipe]
    split_ifs <;> rfl
  · rfl

@[simp] theorem State.select_clock (choice : Option RecipeSlot) (s : State) : (State.select choice s).1.clock = s.clock := by
  unfold State.select
  split <;> rfl

@[simp] theorem activateSlotBody_clock (k : RecipeSlot) (s : State) : (activateSlotBody k s).1.clock = s.clock := by
  unfold activateSlotBody
  split <;> simp

@[simp] theorem recipeClearBody_clock (k : RecipeSlot) (s : State) : (recipeClearBody k s).1.clock = s.clock := by
  unfold recipeClearBody
  split_ifs <;> rfl

/-! ## The Memory Link and the history memory -/

@[simp] theorem State.endSave_clock (status : Status) (s : State) : (s.endSave status).clock = s.clock := by
  unfold State.endSave
  split <;> simp

@[simp] theorem State.endFormat_clock (status : Status) (data : List Byte) (s : State) :
    (s.endFormat status data).clock = s.clock := by
  unfold State.endFormat
  split <;> simp

@[simp] theorem State.enterFault_clock (cause : FaultCause) (s : State) : (s.enterFault cause).clock = s.clock := by
  unfold State.enterFault
  dsimp only
  split <;> simp

@[simp] theorem State.failUnlessFormatting_clock (cause : FaultCause) (s : State) :
    (s.failUnlessFormatting cause).clock = s.clock := by
  unfold State.failUnlessFormatting
  split <;> simp

@[simp] theorem State.failStep_clock (op : LinkOp) (cause : FaultCause) (s : State) :
    (s.failStep op cause).clock = s.clock := by
  unfold State.failStep State.failOp
  dsimp only
  split <;> simp

@[simp] theorem State.verified_clock {next : State → State} (hnext : ∀ u, (next u).clock = u.clock) (equal : Bool)
    (op : LinkOp) (s : State) : (s.verified equal op next).clock = s.clock := by
  unfold State.verified
  split <;> simp [hnext]

@[simp] theorem State.grantFormat_clock (f : FormatRequest) (s : State) : (s.grantFormat f).clock = s.clock := rfl

@[simp] theorem State.grantSave_clock (r : SaveRequest) (s : State) : (s.grantSave r).clock = s.clock := rfl

@[simp] theorem State.grantFlush_clock (s : State) : s.grantFlush.clock = s.clock := by
  unfold State.grantFlush
  dsimp only
  split_ifs <;> simp

@[simp] theorem State.grantRead_clock (p : Port) (s : State) : (s.grantRead p).clock = s.clock := rfl

@[simp] theorem State.choose_clock (s : State) : s.choose.clock = s.clock := by
  unfold State.choose State.chooseFlushOrRead
  repeat' split
  all_goals simp

@[simp] theorem State.recordWritten_clock (s : State) : s.recordWritten.clock = s.clock := by
  unfold State.recordWritten
  split <;> simp

@[simp] theorem State.sectorEntered_clock (seq : Nat) (s : State) : (s.sectorEntered seq).clock = s.clock := rfl

@[simp] theorem State.setSettings_clock (x : SettingsSector) (s : State) : (s.setSettings x).clock = s.clock := rfl

@[simp] theorem State.formatDone_clock (f : FormatRequest) (s : State) : (s.formatDone f).clock = s.clock := by
  simp [State.formatDone]

@[simp] theorem State.formatStored_clock (f : FormatRequest) (image : SettingsImage) (s : State) :
    (s.formatStored f image).clock = s.clock := by
  unfold State.formatStored
  dsimp only
  split <;> simp

@[simp] theorem State.formatStep_clock (f : FormatRequest) (equal : Bool) (step : FormatStep) (s : State) :
    (s.formatStep f equal step).clock = s.clock := by
  unfold State.formatStep
  dsimp only
  repeat' split
  all_goals simp

@[simp] theorem State.discardServed_clock (p : Port) (s : State) : (s.discardServed p).clock = s.clock :=
  (State.discardServed_frame p s).clock_eq (by simp)

@[simp] theorem historyOpenBody_clock (p : Port) (payload : List Byte) (s : State) :
    (historyOpenBody p payload s).1.clock = s.clock := by
  unfold historyOpenBody
  dsimp only
  split <;> simp

@[simp] theorem historyNextBody_clock (p : Port) (s : State) : (historyNextBody p s).1.clock = s.clock := by
  unfold historyNextBody State.lineUpRead
  dsimp only
  repeat' split
  all_goals rfl

@[simp] theorem settingsSaveBody_clock (p : Port) (s : State) : (settingsSaveBody p s).1.clock = s.clock := by
  unfold settingsSaveBody
  split_ifs <;> rfl

@[simp] theorem historyFormatBody_clock (p : Port) (payload : List Byte) (s : State) :
    (historyFormatBody p payload s).1.clock = s.clock := by
  unfold historyFormatBody
  dsimp only
  split_ifs <;> rfl

@[simp] theorem drainBody_clock (s : State) : (drainBody s).1.clock = s.clock := by
  unfold drainBody
  repeat' split
  all_goals simp

/-! ## The Line Monitor -/

@[simp] theorem State.reportMould_clock (before : LineMonitor) (s : State) : (s.reportMould before).clock = s.clock := by
  unfold State.reportMould
  dsimp only
  split_ifs <;> simp

@[simp] theorem State.reportEjector_clock (before : LineMonitor) (d : Daylight) (s : State) :
    (s.reportEjector before d).clock = s.clock := by
  unfold State.reportEjector
  dsimp only
  split_ifs <;> simp

@[simp] theorem State.reportMode_clock (before : Mode) (s : State) : (s.reportMode before).clock = s.clock := by
  unfold State.reportMode
  dsimp only
  split_ifs <;> simp

@[simp] theorem State.reportHold_clock (before : HoldReasons) (s : State) : (s.reportHold before).clock = s.clock := by
  unfold State.reportHold
  split <;> rfl

@[simp] theorem State.recomputeLines_clock (s : State) : s.recomputeLines.clock = s.clock := by
  simp [State.recomputeLines]

/-! ## Station ports -/

@[simp] theorem State.answerOnly_clock (p : Port) (r : Response) (s : State) : (s.answerOnly p r).clock = s.clock := by
  unfold State.answerOnly
  split <;> simp

@[simp] theorem noticeReadBody_clock (p : Port) (s : State) : (noticeReadBody p s).1.clock = s.clock := rfl

@[simp] theorem noticeMaskBody_clock (p : Port) (payload : List Byte) (s : State) :
    (noticeMaskBody p payload s).1.clock = s.clock := by
  unfold noticeMaskBody
  dsimp only
  split <;> rfl

@[simp] theorem operationResultBody_clock (p : Port) (s : State) : (operationResultBody p s).1.clock = s.clock := by
  unfold operationResultBody
  split <;> rfl

@[simp] theorem portRestartBody_clock (p : Port) (s : State) : (portRestartBody p s).1.clock = s.clock :=
  State.discardServed_clock p s

/-! ## The Weigh Front End -/

@[simp] theorem calibrationBody_clock (p : Port) (kind : CalKind) (op : OpKind) (s : State) :
    (calibrationBody p kind op s).1.clock = s.clock := by
  unfold calibrationBody
  split_ifs <;> rfl

@[simp] theorem stabilityBandBody_clock (payload : List Byte) (s : State) :
    (stabilityBandBody payload s).1.clock = s.clock := rfl

@[simp] theorem State.setScale_clock (zero : Int) (span : Nat) (s : State) : (s.setScale zero span).clock = s.clock := by
  unfold State.setScale
  split <;> rfl

@[simp] theorem State.endCalibration_clock (c : Calibration) (status : Status) (data : List Byte) (s : State) :
    (s.endCalibration c status data).clock = s.clock := State.deliver_clock ..

@[simp] theorem State.zeroDone_clock (c : Calibration) (s : State) : (s.zeroDone c).clock = s.clock := by
  unfold State.zeroDone
  split <;> simp

@[simp] theorem State.spanDone_clock (c : Calibration) (wref : Nat) (clamped : Bool) (s : State) :
    (s.spanDone c wref clamped).clock = s.clock := by
  unfold State.spanDone
  dsimp only
  split <;> simp

/-! ## The Trip Unit -/

@[simp] theorem State.countTrip_clock (z : Zone) (s : State) : (s.countTrip z).clock = s.clock := by
  refine State.each_clock (fun d u => ?_) ..
  split <;> rfl

@[simp] theorem State.onsetTest_clock (z : Zone) (src : Source) (s : State) : (s.onsetTest z src).clock = s.clock := by
  unfold State.onsetTest State.takeOnset
  dsimp only
  repeat' split
  all_goals simp

@[simp] theorem tripClearBody_clock (payload : List Byte) (z : Zone) (s : State) :
    (tripClearBody payload z s).1.clock = s.clock := by
  unfold tripClearBody
  dsimp only
  repeat' split
  all_goals rfl

@[simp] theorem tripKindBody_clock (payload : List Byte) (z : Zone) (s : State) :
    (tripKindBody payload z s).1.clock = s.clock := by
  unfold tripKindBody
  split <;> rfl

/-! ## Zone Controller, Heater Budget, Window Generator, Thermal Front End -/

@[simp] theorem State.markHeatRevised_clock (s : State) : s.markHeatRevised.clock = s.clock :=
  State.each_clock (fun _ _ => State.modShot_clock ..) ..

@[simp] theorem State.applyHeat_clock (s : State) : s.applyHeat.clock = s.clock := by
  unfold State.applyHeat
  dsimp only
  repeat' split
  all_goals simp

@[simp] theorem State.startWindow_clock (s : State) : s.startWindow.clock = s.clock := State.applyHeat_clock _

@[simp] theorem windowLengthBody_clock (payload : List Byte) (s : State) :
    (windowLengthBody payload s).1.clock = s.clock := rfl

@[simp] theorem zoneModeBody_clock (payload : List Byte) (z : Zone) (s : State) :
    (zoneModeBody payload z s).1.clock = s.clock := by
  unfold zoneModeBody
  dsimp only
  repeat' split
  all_goals rfl

@[simp] theorem manualDutyBody_clock (payload : List Byte) (z : Zone) (s : State) :
    (manualDutyBody payload z s).1.clock = s.clock := by
  unfold manualDutyBody
  split <;> rfl

@[simp] theorem budgetBody_clock (payload : List Byte) (s : State) : (budgetBody payload s).1.clock = s.clock := by
  unfold budgetBody
  dsimp only
  split <;> rfl

@[simp] theorem loadWeightBody_clock (payload : List Byte) (z : Zone) (s : State) :
    (loadWeightBody payload z s).1.clock = s.clock := by
  unfold loadWeightBody
  dsimp only
  split <;> rfl

@[simp] theorem gainsBody_clock (payload : List Byte) (z : Zone) (s : State) :
    (gainsBody payload z s).1.clock = s.clock := rfl

@[simp] theorem trimWriteBody_clock (payload : List Byte) (z : Zone) (s : State) :
    (trimWriteBody payload z s).1.clock = s.clock := rfl

/-! ## All commands -/

/-- The body of a request keeps the Clock. -/
def ReplyKeepsClock (body : State → Reply) : Prop := ∀ s, (body s).1.clock = s.clock

theorem ReplyKeepsClock.onDaylight {payload : List Byte} {body : Daylight → State → Reply}
    (h : ∀ d, ReplyKeepsClock (body d)) : ReplyKeepsClock (onDaylight payload body) := by
  intro s
  unfold Machine.onDaylight
  split
  · rfl
  · exact h _ s

theorem ReplyKeepsClock.onZone {payload : List Byte} {body : Zone → State → Reply}
    (h : ∀ z, ReplyKeepsClock (body z)) : ReplyKeepsClock (onZone payload body) := by
  intro s
  unfold Machine.onZone
  split
  · rfl
  · exact h _ s

theorem ReplyKeepsClock.onRecipeSlot {payload : List Byte} {body : RecipeSlot → State → Reply}
    (h : ∀ k, ReplyKeepsClock (body k)) : ReplyKeepsClock (onRecipeSlot payload body) := by
  intro s
  unfold Machine.onRecipeSlot
  split
  · rfl
  · exact h _ s

/-- A command's outcome is a next state with the same Clock. -/
def KeepsClock (s : State) (o : Outcome) : Prop := ∃ t, o = .next t ∧ t.clock = s.clock

theorem KeepsClock.of_next {s t : State} (h : t.clock = s.clock) : KeepsClock s (.next t) := ⟨t, rfl, h⟩

theorem ReplyKeepsClock.request {row : Row} {p : Port} {payload : List Byte} {body : State → Reply}
    (h : ReplyKeepsClock body) (s : State) : KeepsClock s (.next (s.request row p payload body)) := by
  refine .of_next (State.request_keeps (fun t => t.clock = s.clock) ?_ (fun t ht => (h t).trans ht) rfl)
  rintro t u ⟨x, rfl, -⟩ ht
  exact ht

theorem execRecipeActivate_keepsClock (p : Port) (payload : List Byte) (s : State) :
    KeepsClock s (execRecipeActivate p payload s) := by
  refine ReplyKeepsClock.request ?_ s
  split
  · exact State.select_clock none
  · exact .onRecipeSlot activateSlotBody_clock

theorem execDebouncedLevelChange_keepsClock (expired : List Line) (s : State) :
    KeepsClock s (execDebouncedLevelChange expired s) := by
  have hsettled := State.each_clock (fun l => State.modLine_clock l LineState.settle) expired s
  refine .of_next ?_
  split
  · exact (State.recomputeLines_clock _).trans hsettled
  · exact hsettled

theorem execSectorHeaderDone_keepsClock (equal : Bool) (s : State) : KeepsClock s (execSectorHeaderDone equal s) := by
  refine .of_next ?_
  split
  · exact State.verified_clock (State.sectorEntered_clock _) ..
  · rfl

theorem execSampleArrival_keepsClock (raw : Int) (saturated : Bool) (s : State) :
    KeepsClock s (execSampleArrival raw saturated s) := by
  unfold execSampleArrival
  dsimp only
  obtain ⟨w, event⟩ := (s.weigh.take raw saturated).settle
  refine .of_next ?_
  cases event <;> dsimp only [Option.elim] <;> split <;> simp

theorem execFlashStepTimeout_keepsClock (s : State) : KeepsClock s (execFlashStepTimeout s) := by
  refine .of_next ?_
  split
  · next op _ => cases op.timeoutCause <;> simp
  · rfl

/-- The commands that write the Clock (R186): the second, the set and the reset. -/
def writesClock : Instr → Bool
  | .deviceReset _ _ | .clockSecond | .clockSet _ _ => true
  | _ => false

theorem exec_keepsClock {c : Instr} (hc : writesClock c = false) (s : State) : KeepsClock s (exec c s) := by
  cases c with
  | deviceReset | clockSecond | clockSet => cases hc
  | sampleArrival raw saturated => exact execSampleArrival_keepsClock raw saturated s
  | debouncedLevelChange expired => exact execDebouncedLevelChange_keepsClock expired s
  | sectorHeaderDone equal => exact execSectorHeaderDone_keepsClock equal s
  | flashStepTimeout => exact execFlashStepTimeout_keepsClock s
  | recipeActivate p payload => exact execRecipeActivate_keepsClock p payload s
  | sampleComplete | chipSelectDeassert => exact .of_next rfl
  | perSecondTest | gapTimerExpiry | ejectorTestTimerExpiry | frameError | unknownCommand => exact .of_next (by simp)
  | rawLevelChange | qualificationExpiry | secondBoundary | perSecondAccounting | chargeQueueExpiry
  | windowStart | heaterOnTimeEnd | permitLapse | tareTimerExpiry | recoveryTimerExpiry | scaleZeroDone | scaleSpanDone
  | strokeTimerExpiry | returnTimerExpiry | linkArbitration | flushProgramDone | sectorEraseDone
  | settingsEraseDone | settingsSaveDone | formatStepDone | portReadDone | chipSelectAssert =>
    refine .of_next ?_
    repeat' split
    all_goals simp
  | daylightStatus | lineStatus | zoneStatus | zoneControlRead | budgetStatus | tripStatus | cureStatus | scaleStatus
  | chargeStatus | demouldStatus | recipeStatus | settingsStatus | historyStatus | clockRead | portStatus =>
    exact ReplyKeepsClock.request (fun _ => rfl) s
  | historyOpen | historyNext | noticeRead | noticeMaskWrite | operationResult | portRestart | cureStart | demouldRequest
  | chargeAbort | forceRelease | windowLengthSet | budgetSet | stabilityBandWrite | scaleZero | scaleSpan
  | hydraulicSlotCountWrite | permitTimeWrite | settingsSave | historyFormat | drain =>
    exact ReplyKeepsClock.request (fun _ => by simp) s
  | declare | ejectorTest | loadRequest | loadDone | loadCancel | takeoutDone | chargeBegin | chargeDiscard =>
    exact (ReplyKeepsClock.onDaylight fun _ _ => by simp).request s
  | channelRead => exact (ReplyKeepsClock.onZone fun _ _ => rfl).request s
  | tripClear | trimWrite | zoneModeSet | manualDutyWrite | loadWeightWrite | gainsWrite | tripKindSet =>
    exact (ReplyKeepsClock.onZone fun _ _ => by simp).request s
  | recipeRead => exact (ReplyKeepsClock.onRecipeSlot fun _ _ => rfl).request s
  | recipeWrite | recipeClear => exact (ReplyKeepsClock.onRecipeSlot fun _ _ => by simp).request s

theorem writesClock_eq_false {c : Instr} (hsecond : c ≠ .clockSecond) (hset : ∀ p b, c ≠ .clockSet p b)
    (hreset : ∀ straps memory, c ≠ .deviceReset straps memory) : writesClock c = false := by
  cases c with
  | clockSecond => exact absurd rfl hsecond
  | clockSet p payload => exact absurd rfl (hset p payload)
  | deviceReset straps memory => exact absurd rfl (hreset straps memory)
  | _ => rfl

/-! ## The commands of the Clock (R186) -/

theorem clockReadBody_enterWorking (p : Port) (s : State) :
    clockReadBody (s.enterWorking p)
      = (s.enterWorking p, ⟨.ok, 0, u32 s.clock.shop ++ flag s.clock.isSet ++ u32 s.clock.uptime⟩) := rfl

/-- A clock set that is taken: the shop clock takes the four bytes, least significant first (R190). -/
theorem execClockSet_taken {p : Port} {b0 b1 b2 b3 : Byte} {s : State}
    (h : Taken Summary.clockSet p [b0, b1, b2, b3] s) :
    execClockSet p [b0, b1, b2, b3] s = .next (({ s with clock := { s.clock with
      shop := b0.toNat + 256 * b1.toNat + 65536 * b2.toNat + 16777216 * b3.toNat, isSet := true } } : State).answered p
        ⟨.ok, 0, []⟩) := by
  rw [execClockSet, State.request_taken h, ← field_four, ← State.respond_enterWorking]
  rfl

theorem execClockSecond_eq (s : State) :
    execClockSecond s = .next { s with clock := { s.clock with
      uptime := min 4294967295 (s.clock.uptime + 1), shop := (s.clock.shop + 1) % 4294967296 } } := rfl

theorem State.stamp_of_set {s : State} (h : s.clock.isSet = true) : s.stamp = ⟨s.clock.shop, true⟩ := by
  simp [State.stamp, h]

theorem State.stamp_of_unset {s : State} (h : s.clock.isSet = false) : s.stamp = ⟨s.clock.uptime, false⟩ := by
  simp [State.stamp, h]

theorem execDeviceReset_clock (straps : Three Strap) (memory : Option Nat) (s : State) :
    ∃ t, execDeviceReset straps memory s = .next t ∧ t.clock = ⟨0, false, 0⟩ := ⟨_, rfl, rfl⟩

/-- Settles O16: read, set, second and reset each by its equation, and the frame for every other command. -/
theorem clockSetsCountsAndHolds : Obligations.ClockSetsCountsAndHolds := by
  unfold Obligations.ClockSetsCountsAndHolds
  refine ⟨fun p s htaken => ?_, fun p b0 b1 b2 b3 s htaken => execClockSet_taken htaken,
    fun p payload s hrecv => ⟨fun hoff => ?_, fun hother => ?_⟩, execClockSecond_eq,
    fun s => ⟨State.stamp_of_set, State.stamp_of_unset⟩, fun straps memory s t ht => ?_,
    fun c s t ht hsecond hset hreset => ?_⟩
  · exact congrArg Host.Outcome.next (State.request_answered htaken (clockReadBody_enterWorking p s))
  · have hrole := off_not_mem_rolesAll hoff
    exact State.next_request_denied hrecv hrole payload _
  · have hrole : (s.port p).role ∉ Summary.clockSet.roles := by simpa [Summary.clockSet] using hother
    exact State.next_request_denied hrecv hrole payload _
  · obtain ⟨u, hu, hclock⟩ := execDeviceReset_clock straps memory s
    obtain rfl : t = u := Host.Outcome.next.inj (ht.symm.trans hu)
    exact hclock
  · obtain ⟨u, hu, hclock⟩ := exec_keepsClock (writesClock_eq_false hsecond hset hreset) s
    obtain rfl : t = u := Host.Outcome.next.inj (ht.symm.trans hu)
    exact hclock

end Sys2Proof.Machine
end
